-- ==== Sys2Proof/Word.lean ====
section
/-! DEFINITION. The word types of AISP-FE (spec/00_scope.md R9 to R11). A byte, a byte string, a 6-bit symbol, the
32-bit command word of the command port (spec/30_encoding.md R90) and the 48-bit reading of a tag (R73).
Everything the spec calls a natural (bit addresses, lengths, fill counts, fragment numbers) is a `Nat` (R10). -/

namespace Sys2Proof

/-- A byte: an unsigned 8-bit value (R9). -/
abbrev Byte := BitVec 8

/-- A byte string (R9). The empty string is `[]`. -/
abbrev Bytes := List Byte

/-- A symbol: the 6-bit value of one armoured character (R11). -/
abbrev Sym := BitVec 6

/-- A command word of the command port (R90). -/
abbrev CmdWord := BitVec 32

/-- A tag read as a 48-bit big-endian number (R73). -/
abbrev TagWord := BitVec 48

end Sys2Proof
end

