-- ==== Sys2Proof/Config.lean ====
section
/-! DEFINITION. What an implementation fixes and what the spec leaves open: the ten decoder identities
(spec/30_encoding.md R86), the Message Model as an oracle given by plain data (spec/41_message_model_boundary.md
R130), the parameters `MIN_BITS`, `CTX_CAP`, `TEXT_MAX`, `SENT_MAX` (spec/00_scope.md R8) and the `mmsi` threshold
(spec/93_implementation_defined.md U12), and the one free value,
the text of an error message (spec/10_state.md R33). -/

namespace Sys2Proof

/-- The ten decoders of the Message Model (30 R86), in the order of their numbers 0 to 9 (R93). -/
inductive Decoder where
  | dec1to3 | dec4 | dec5 | dec8 | dec14 | dec18 | dec19 | dec21 | dec24 | dec27
  deriving DecidableEq, Repr

/-- What the Message Model answers for one payload (41 R130). -/
inductive Verdict where
  /-- the decoder accepts the payload -/
  | ok
  /-- the payload is below the decoder's minimum length -/
  | tooShort
  /-- a failure inside the Message Model, with its message -/
  | external (msg : Bytes)
  deriving DecidableEq, Repr

/-- What the Message Model is given (41 R130): `(decoder, aisType, BC.TEXT, BC.FILL, channel)`. -/
structure Query where
  decoder : Decoder
  aisType : Sym
  text : Bytes
  fill : Nat
  channel : Bytes
  deriving DecidableEq, Repr

/-- The Message Model as plain data: the answers to finitely many queries, and the answer to every other one. Every
finite run of the block asks finitely many queries, so every function of 41 R130 is met by some table on that run.
DESIGN CHOICE (log 7). -/
structure Oracle where
  table : List (Query × Verdict)
  otherwise : Verdict
  deriving DecidableEq, Repr

/-- The oracle's own answer to a query. -/
def Oracle.answer (o : Oracle) (q : Query) : Verdict :=
  (o.table.lookup q).getD o.otherwise

/-- The default oracle (44 R198: "the default `MM` (length test only ...)"): no failure of its own. -/
def Oracle.default : Oracle := { table := [], otherwise := .ok }

/-- The parameters of 00 R8 that are not the oracle. A decoder without an entry in `minBits` is OPEN (41 R133); a
capacity `none` is unbounded (00 section 4: "OPEN, unbounded by default"). `mmsiBits` is the payload length from which
the `mmsi` is read (41 R135), an unaudited literal that 93 U12 makes a parameter (log 27). -/
structure Params where
  minBits : List (Decoder × Nat)
  ctxCap : Option Nat
  textMax : Option Nat
  sentMax : Option Nat
  mmsiBits : Nat
  deriving DecidableEq, Repr

/-- `MIN_BITS` as far as the source gives it (41 R133). -/
def Params.sourceMinBits : List (Decoder × Nat) :=
  [(.dec1to3, 144), (.dec4, 167), (.dec5, 423), (.dec8, 56), (.dec14, 40), (.dec21, 271)]

/-- The defaults: the source's minimum lengths, no capacity (00 section 4; log 8, log 9), and the source's `mmsi`
threshold 38 (UNVERIFIED: 93 U12, log 27). -/
def Params.default : Params :=
  { minBits := sourceMinBits, ctxCap := none, textMax := none, sentMax := none, mmsiBits := 38 }

/-- The text of the `n`-th message drawn: a free value (10 R33: "A model treats it as a free value (a draw) and
states no claim about it"; log 6). -/
opaque Config.freeMessage : Nat → Bytes

end Sys2Proof
end

