-- ==== Sys2Proof/Syntax.lean ====
section
/-! DEFINITION. What can be presented to the block, and the instructions it decodes into: one constructor of `Instr`
for each of the 86 rows of spec/opcode_table.json (spec/00_scope.md R2: the nine operations, the five sentence
classes, the 64 dispatch cases; spec/30_encoding.md R73 the tag, R94 the seven reserved command codes). -/

namespace Sys2Proof

/-- The bulk operand beside a command word (30 R90): none, one byte string (a sentence or an armoured text), or a
field list. -/
inductive Bulk where
  | none
  | text (bytes : Bytes)
  | fields (list : List Bytes)
  deriving DecidableEq, Repr

/-- The converted content of one sentence (42 R158, 30 R72): the six values the class rules use, and the two parts of
a sentence no later step looks at, its tag (`own` is true for `!AIVDO`, 30 R73) and the text after the `*` of field 7
(30 R75). -/
structure Fragment where
  own : Bool
  count : Nat
  index : Nat
  seqId : Bytes
  channel : Bytes
  armoured : Bytes
  fill : Nat
  sumText : Option Bytes
  deriving DecidableEq, Repr

/-- The five sentence classes (30 R78). -/
inductive SentenceClass where
  | single | first | middle | final | badseq
  deriving DecidableEq, Repr

/-- The instructions. Operands are the naturals and byte strings of the rules (30 R90: "The operation rules are stated
over natural-number operands; the port only limits which operands can be spelled"). -/
inductive Instr where
  /-- `SP.INIT` (42 R150) -/
  | spInit (c : Bool)
  /-- `SP.PARSE` (42 R151): the per-call option (10 R22) and the sentence -/
  | spParse (opt : Option Bool) (sentence : Bytes)
  /-- `SP.PARSEF` (42 R161) -/
  | spParsef (fields : List Bytes)
  /-- `BC.LOAD` (40 R101) -/
  | bcLoad (fill : Nat) (text : Bytes)
  /-- `BC.LEN` (40 R102) -/
  | bcLen
  /-- `BC.RDU` (40 R105) -/
  | bcRdu (start length : Nat)
  /-- `BC.RDI` (40 R110) -/
  | bcRdi (start length : Nat)
  /-- `BC.RDS` (40 R112) -/
  | bcRds (start length : Nat)
  /-- `BC.RDB` (40 R115) -/
  | bcRdb (start length : Nat)
  -- The seven reserved command codes (30 R94): the other 28 bits of the word and whatever stands beside it.
  | cmdReserved3 (rest : BitVec 28) (bulk : Bulk)
  | cmdReserved4 (rest : BitVec 28) (bulk : Bulk)
  | cmdReserved5 (rest : BitVec 28) (bulk : Bulk)
  | cmdReserved6 (rest : BitVec 28) (bulk : Bulk)
  | cmdReserved7 (rest : BitVec 28) (bulk : Bulk)
  | cmdReservedE (rest : BitVec 28) (bulk : Bulk)
  | cmdReservedF (rest : BitVec 28) (bulk : Bulk)
  /-- `SENT.SINGLE` (43 R171) -/
  | sentSingle (x : Fragment)
  /-- `SENT.FIRST` (43 R172) -/
  | sentFirst (x : Fragment)
  /-- `SENT.MIDDLE` (43 R173) -/
  | sentMiddle (x : Fragment)
  /-- `SENT.FINAL` (43 R174) -/
  | sentFinal (x : Fragment)
  /-- `SENT.BADSEQ` (43 R175) -/
  | sentBadseq (x : Fragment)
  /-- `TAG.AIVDM_AIVDO` (30 R73): `own` is the bit the mask leaves free, true for `!AIVDO` -/
  | tagAivdmAivdo (own : Bool)
  -- `DISP.T0` to `DISP.T63` (44 R193, R194): the operand is the channel the result reports.
  | dispT0 (channel : Bytes)
  | dispT1 (channel : Bytes)
  | dispT2 (channel : Bytes)
  | dispT3 (channel : Bytes)
  | dispT4 (channel : Bytes)
  | dispT5 (channel : Bytes)
  | dispT6 (channel : Bytes)
  | dispT7 (channel : Bytes)
  | dispT8 (channel : Bytes)
  | dispT9 (channel : Bytes)
  | dispT10 (channel : Bytes)
  | dispT11 (channel : Bytes)
  | dispT12 (channel : Bytes)
  | dispT13 (channel : Bytes)
  | dispT14 (channel : Bytes)
  | dispT15 (channel : Bytes)
  | dispT16 (channel : Bytes)
  | dispT17 (channel : Bytes)
  | dispT18 (channel : Bytes)
  | dispT19 (channel : Bytes)
  | dispT20 (channel : Bytes)
  | dispT21 (channel : Bytes)
  | dispT22 (channel : Bytes)
  | dispT23 (channel : Bytes)
  | dispT24 (channel : Bytes)
  | dispT25 (channel : Bytes)
  | dispT26 (channel : Bytes)
  | dispT27 (channel : Bytes)
  | dispT28 (channel : Bytes)
  | dispT29 (channel : Bytes)
  | dispT30 (channel : Bytes)
  | dispT31 (channel : Bytes)
  | dispT32 (channel : Bytes)
  | dispT33 (channel : Bytes)
  | dispT34 (channel : Bytes)
  | dispT35 (channel : Bytes)
  | dispT36 (channel : Bytes)
  | dispT37 (channel : Bytes)
  | dispT38 (channel : Bytes)
  | dispT39 (channel : Bytes)
  | dispT40 (channel : Bytes)
  | dispT41 (channel : Bytes)
  | dispT42 (channel : Bytes)
  | dispT43 (channel : Bytes)
  | dispT44 (channel : Bytes)
  | dispT45 (channel : Bytes)
  | dispT46 (channel : Bytes)
  | dispT47 (channel : Bytes)
  | dispT48 (channel : Bytes)
  | dispT49 (channel : Bytes)
  | dispT50 (channel : Bytes)
  | dispT51 (channel : Bytes)
  | dispT52 (channel : Bytes)
  | dispT53 (channel : Bytes)
  | dispT54 (channel : Bytes)
  | dispT55 (channel : Bytes)
  | dispT56 (channel : Bytes)
  | dispT57 (channel : Bytes)
  | dispT58 (channel : Bytes)
  | dispT59 (channel : Bytes)
  | dispT60 (channel : Bytes)
  | dispT61 (channel : Bytes)
  | dispT62 (channel : Bytes)
  | dispT63 (channel : Bytes)
  deriving DecidableEq, Repr

/-- What is presented to the block. A command word with its bulk operand is what a host issues (30 R90). The other
three are the block's own decode points inside a parse, a sentence (00 R2, 92 D1 "instruction word = the sentence"),
a tag and a type discriminator, so that every row of the opcode table can be presented and stepped by itself.
DESIGN CHOICE (log 2). -/
inductive Issue where
  | command (word : CmdWord) (bulk : Bulk)
  | sentence (bytes : Bytes)
  | tag (word : TagWord)
  | typeField (t : Sym) (channel : Bytes)
  deriving DecidableEq, Repr

end Sys2Proof
end

