-- ==== Sys2Proof/WellFormed.lean ====
section
/-! DEFINITION. Which instructions can be spelled: the limits of the command port (spec/30_encoding.md R90) and, for a
sentence, that no field holds a comma (R71) and that its fragment numbers are those of its class (R78). -/

namespace Sys2Proof

/-- A field of a sentence holds no comma: there is no quoting (30 R71). -/
def noComma (b : Bytes) : Bool := !b.contains 0x2C

/-- The byte fields of a fragment can stand in a sentence. -/
def Fragment.spellable (x : Fragment) : Bool :=
  noComma x.seqId && noComma x.channel && noComma x.armoured && noComma (x.sumText.getD [])

/-- The fragment numbers of each class, as the table of 30 R78 gives them. -/
def classNumbers (k : SentenceClass) (c i : Nat) : Bool :=
  match k with
  | .single => decide (c = 1)
  | .first => decide (1 < c ∧ i = 1)
  | .middle => decide (1 < c ∧ 1 < i ∧ i < c)
  | .final => decide (1 < c ∧ i = c)
  | .badseq => decide (c = 0 ∨ 1 < c ∧ (i = 0 ∨ c < i))

/-- A fragment of class `k`. -/
def Fragment.ofClass (k : SentenceClass) (x : Fragment) : Bool :=
  x.spellable && classNumbers k x.count x.index

/-- The operands of a read that the port can spell (30 R90: `startBit < 65536`, `lengthBits < 4096`). -/
def portRead (s l : Nat) : Bool := decide (s < 65536) && decide (l < 4096)

/-- Well-formed instructions: those that have an encoding. -/
def Instr.wf : Instr → Bool
  | .spInit _ => true
  | .spParse _ _ => true
  | .spParsef _ => true
  | .bcLoad fill _ => decide (fill < 65536)
  | .bcLen => true
  | .bcRdu s l => portRead s l
  | .bcRdi s l => portRead s l
  | .bcRds s l => portRead s l
  | .bcRdb s l => portRead s l
  | .cmdReserved3 _ _ => true
  | .cmdReserved4 _ _ => true
  | .cmdReserved5 _ _ => true
  | .cmdReserved6 _ _ => true
  | .cmdReserved7 _ _ => true
  | .cmdReservedE _ _ => true
  | .cmdReservedF _ _ => true
  | .sentSingle x => x.ofClass .single
  | .sentFirst x => x.ofClass .first
  | .sentMiddle x => x.ofClass .middle
  | .sentFinal x => x.ofClass .final
  | .sentBadseq x => x.ofClass .badseq
  | .tagAivdmAivdo _ => true
  | .dispT0 _ => true
  | .dispT1 _ => true
  | .dispT2 _ => true
  | .dispT3 _ => true
  | .dispT4 _ => true
  | .dispT5 _ => true
  | .dispT6 _ => true
  | .dispT7 _ => true
  | .dispT8 _ => true
  | .dispT9 _ => true
  | .dispT10 _ => true
  | .dispT11 _ => true
  | .dispT12 _ => true
  | .dispT13 _ => true
  | .dispT14 _ => true
  | .dispT15 _ => true
  | .dispT16 _ => true
  | .dispT17 _ => true
  | .dispT18 _ => true
  | .dispT19 _ => true
  | .dispT20 _ => true
  | .dispT21 _ => true
  | .dispT22 _ => true
  | .dispT23 _ => true
  | .dispT24 _ => true
  | .dispT25 _ => true
  | .dispT26 _ => true
  | .dispT27 _ => true
  | .dispT28 _ => true
  | .dispT29 _ => true
  | .dispT30 _ => true
  | .dispT31 _ => true
  | .dispT32 _ => true
  | .dispT33 _ => true
  | .dispT34 _ => true
  | .dispT35 _ => true
  | .dispT36 _ => true
  | .dispT37 _ => true
  | .dispT38 _ => true
  | .dispT39 _ => true
  | .dispT40 _ => true
  | .dispT41 _ => true
  | .dispT42 _ => true
  | .dispT43 _ => true
  | .dispT44 _ => true
  | .dispT45 _ => true
  | .dispT46 _ => true
  | .dispT47 _ => true
  | .dispT48 _ => true
  | .dispT49 _ => true
  | .dispT50 _ => true
  | .dispT51 _ => true
  | .dispT52 _ => true
  | .dispT53 _ => true
  | .dispT54 _ => true
  | .dispT55 _ => true
  | .dispT56 _ => true
  | .dispT57 _ => true
  | .dispT58 _ => true
  | .dispT59 _ => true
  | .dispT60 _ => true
  | .dispT61 _ => true
  | .dispT62 _ => true
  | .dispT63 _ => true

end Sys2Proof
end

