-- ==== Sys2Proof/Decode.lean ====
section
/-! DEFINITION. The decoder: from what is presented to an instruction, total, rejecting by name; and the encoder back.
Sentences: split (spec/30_encoding.md R71), tag (R73), decimal (R74), field 7 (R75), class (R78). Command words: R90
to R94. Type discriminator: R85. -/

namespace Sys2Proof

/-- Why nothing is decoded. -/
inductive DecodeError where
  /-- a command word with a non-zero bit where its format says 0 (30 R94) -/
  | reservedBits
  /-- the option pattern 01 of `CMD.P` (30 R92, R94) -/
  | reservedOption
  /-- a bulk operand of another shape than the command's format names (30 R90) -/
  | bulkMismatch
  /-- not exactly seven fields (30 R71) -/
  | fieldCount
  /-- neither `!AIVDM` nor `!AIVDO` (30 R73) -/
  | unsupportedTag
  /-- a count, index or fill that is not decimal (30 R74) -/
  | notDecimal
  deriving DecidableEq, Repr

/-! ### Sentences -/

/-- The byte `,` that separates fields (30 R71). -/
def comma : Byte := 0x2C

/-- The byte `*` that ends the fill text (30 R75). -/
def star : Byte := 0x2A

/-- The class a pair of fragment numbers selects (30 R78). -/
def classOf (c i : Nat) : SentenceClass :=
  if c = 1 then .single
  else if c = 0 ∨ i = 0 ∨ c < i then .badseq
  else if i = 1 then .first
  else if i < c then .middle
  else .final

/-- `Split` (30 R71, 42 R153): cut at every comma; the empty string gives one empty field. -/
def split : Bytes → List Bytes
  | [] => [[]]
  | b :: r =>
    if b = comma then [] :: split r
    else
      match split r with
      | [] => [[b]]
      | f :: fs => (b :: f) :: fs

/-- The value of a decimal digit, 0x30 to 0x39 (30 R74). -/
def digitValue (b : Byte) : Option Nat :=
  if 48 ≤ b.toNat ∧ b.toNat ≤ 57 then some (b.toNat - 48) else none

/-- Decimal conversion continued from the value `acc` of the digits already read. -/
def decFrom : Nat → Bytes → Option Nat
  | acc, [] => some acc
  | acc, b :: r =>
    match digitValue b with
    | some d => decFrom (acc * 10 + d) r
    | none => none

/-- `Dec` (30 R74): digits only, at least one, leading zeros allowed, no bound. -/
def dec : Bytes → Option Nat
  | [] => none
  | b :: r => decFrom 0 (b :: r)

/-- `FillText` (30 R75): field 7 up to its first `*`. -/
def fillText (f : Bytes) : Bytes := f.takeWhile fun b => b != star

/-- Whatever follows the first `*` (30 R75, R76); `none` when there is no `*`. -/
def afterStar (f : Bytes) : Option Bytes :=
  match f.dropWhile fun b => b != star with
  | [] => none
  | _ :: r => some r

/-- `!AIVDM` (30 R73). -/
def tagVdm : Bytes := [0x21, 0x41, 0x49, 0x56, 0x44, 0x4D]

/-- `!AIVDO` (30 R73). -/
def tagVdo : Bytes := [0x21, 0x41, 0x49, 0x56, 0x44, 0x4F]

/-- The tag test (30 R73), byte for byte: `some false` for `!AIVDM`, `some true` for `!AIVDO`. -/
def tagKind (f : Bytes) : Option Bool :=
  if f = tagVdm then some false else if f = tagVdo then some true else none

/-- The conversions of 42 R158 on the fields after the tag; `none` when a number is not decimal (R159). -/
def convertFields (own : Bool) (cnt idx k ch a f7 : Bytes) : Option Fragment :=
  match dec cnt, dec idx, dec (fillText f7) with
  | some c, some i, some f =>
    some { own := own, count := c, index := i, seqId := k, channel := ch, armoured := a, fill := f,
           sumText := afterStar f7 }
  | _, _, _ => none

/-- The instruction of a converted sentence: its class (30 R78). -/
def sentenceInstr (x : Fragment) : Instr :=
  match classOf x.count x.index with
  | .single => .sentSingle x
  | .first => .sentFirst x
  | .middle => .sentMiddle x
  | .final => .sentFinal x
  | .badseq => .sentBadseq x

/-- A sentence decodes into its class (30 R78, after R71, R73, R74). -/
def decodeSentence (S : Bytes) : Except DecodeError Instr :=
  match split S with
  | [tag, cnt, idx, k, ch, a, f7] =>
    match tagKind tag with
    | none => .error .unsupportedTag
    | some own =>
      match convertFields own cnt idx k ch a f7 with
      | none => .error .notDecimal
      | some x => .ok (sentenceInstr x)
  | _ => .error .fieldCount

/-! ### The tag row and the type discriminator -/

/-- The mask of row `TAG.AIVDM_AIVDO` (30 R73). -/
def tagMask : TagWord := 0xFFFFFFFFFFFD

/-- The match of row `TAG.AIVDM_AIVDO` (30 R73). -/
def tagMatch : TagWord := 0x21414956444D

/-- The tag row (30 R73): bit 1 tells `!AIVDO` from `!AIVDM`. -/
def decodeTag (w : TagWord) : Except DecodeError Instr :=
  if w &&& tagMask = tagMatch then .ok (.tagAivdmAivdo (w.getLsbD 1)) else .error .unsupportedTag

/-- A byte string read as a 48-bit big-endian number (30 R73). -/
def tagWord (f : Bytes) : TagWord := f.foldl (fun w b => (w <<< 8) ||| b.setWidth 48) 0

/-- The dispatch case of a type discriminator (30 R85, 44 R193): rows `DISP.T0` to `DISP.T63`. -/
def dispInstr (t : Sym) (ch : Bytes) : Instr :=
  match t.toNat with
  | 0 => .dispT0 ch
  | 1 => .dispT1 ch
  | 2 => .dispT2 ch
  | 3 => .dispT3 ch
  | 4 => .dispT4 ch
  | 5 => .dispT5 ch
  | 6 => .dispT6 ch
  | 7 => .dispT7 ch
  | 8 => .dispT8 ch
  | 9 => .dispT9 ch
  | 10 => .dispT10 ch
  | 11 => .dispT11 ch
  | 12 => .dispT12 ch
  | 13 => .dispT13 ch
  | 14 => .dispT14 ch
  | 15 => .dispT15 ch
  | 16 => .dispT16 ch
  | 17 => .dispT17 ch
  | 18 => .dispT18 ch
  | 19 => .dispT19 ch
  | 20 => .dispT20 ch
  | 21 => .dispT21 ch
  | 22 => .dispT22 ch
  | 23 => .dispT23 ch
  | 24 => .dispT24 ch
  | 25 => .dispT25 ch
  | 26 => .dispT26 ch
  | 27 => .dispT27 ch
  | 28 => .dispT28 ch
  | 29 => .dispT29 ch
  | 30 => .dispT30 ch
  | 31 => .dispT31 ch
  | 32 => .dispT32 ch
  | 33 => .dispT33 ch
  | 34 => .dispT34 ch
  | 35 => .dispT35 ch
  | 36 => .dispT36 ch
  | 37 => .dispT37 ch
  | 38 => .dispT38 ch
  | 39 => .dispT39 ch
  | 40 => .dispT40 ch
  | 41 => .dispT41 ch
  | 42 => .dispT42 ch
  | 43 => .dispT43 ch
  | 44 => .dispT44 ch
  | 45 => .dispT45 ch
  | 46 => .dispT46 ch
  | 47 => .dispT47 ch
  | 48 => .dispT48 ch
  | 49 => .dispT49 ch
  | 50 => .dispT50 ch
  | 51 => .dispT51 ch
  | 52 => .dispT52 ch
  | 53 => .dispT53 ch
  | 54 => .dispT54 ch
  | 55 => .dispT55 ch
  | 56 => .dispT56 ch
  | 57 => .dispT57 ch
  | 58 => .dispT58 ch
  | 59 => .dispT59 ch
  | 60 => .dispT60 ch
  | 61 => .dispT61 ch
  | 62 => .dispT62 ch
  | _ => .dispT63 ch

/-! ### Command words -/

/-- `SP.PARSE`'s option bits (30 R92). -/
def decodeOption (present value : Bool) : Except DecodeError (Option Bool) :=
  match present, value with
  | false, false => .ok none
  | true, v => .ok (some v)
  | false, true => .error .reservedOption

/-- A read command: `lengthBits` in `cmd[27:16]`, `startBit` in `cmd[15:0]`, no bulk operand (30 R90). -/
def decodeRead (mk : Nat → Nat → Instr) (w : CmdWord) (b : Bulk) : Except DecodeError Instr :=
  match b with
  | .none => .ok (mk (w.extractLsb' 0 16).toNat (w.extractLsb' 16 12).toNat)
  | _ => .error .bulkMismatch

/-- A command word and its bulk operand (30 R90 to R94). -/
def decodeCommand (w : CmdWord) (b : Bulk) : Except DecodeError Instr :=
  match (w.extractLsb' 28 4).toNat with
  | 0 =>
    if w.extractLsb' 1 27 = 0 then
      match b with
      | .none => .ok (.spInit (w.getLsbD 0))
      | _ => .error .bulkMismatch
    else .error .reservedBits
  | 1 =>
    if w.extractLsb' 2 26 = 0 then
      match decodeOption (w.getLsbD 1) (w.getLsbD 0) with
      | .error e => .error e
      | .ok o =>
        match b with
        | .text S => .ok (.spParse o S)
        | _ => .error .bulkMismatch
    else .error .reservedBits
  | 2 =>
    if w.extractLsb' 0 28 = 0 then
      match b with
      | .fields L => .ok (.spParsef L)
      | _ => .error .bulkMismatch
    else .error .reservedBits
  | 8 =>
    if w.extractLsb' 16 12 = 0 then
      match b with
      | .text t => .ok (.bcLoad (w.extractLsb' 0 16).toNat t)
      | _ => .error .bulkMismatch
    else .error .reservedBits
  | 9 =>
    if w.extractLsb' 0 28 = 0 then
      match b with
      | .none => .ok .bcLen
      | _ => .error .bulkMismatch
    else .error .reservedBits
  | 10 => decodeRead .bcRdu w b
  | 11 => decodeRead .bcRdi w b
  | 12 => decodeRead .bcRds w b
  | 13 => decodeRead .bcRdb w b
  | 3 => .ok (.cmdReserved3 (w.extractLsb' 0 28) b)
  | 4 => .ok (.cmdReserved4 (w.extractLsb' 0 28) b)
  | 5 => .ok (.cmdReserved5 (w.extractLsb' 0 28) b)
  | 6 => .ok (.cmdReserved6 (w.extractLsb' 0 28) b)
  | 7 => .ok (.cmdReserved7 (w.extractLsb' 0 28) b)
  | 14 => .ok (.cmdReservedE (w.extractLsb' 0 28) b)
  | _ => .ok (.cmdReservedF (w.extractLsb' 0 28) b)

/-- The decoder, total on everything that can be presented. -/
def decode : Issue → Except DecodeError Instr
  | .command w b => decodeCommand w b
  | .sentence S => decodeSentence S
  | .tag w => decodeTag w
  | .typeField t ch => .ok (dispInstr t ch)

/-! ### The encoder -/

/-- Decimal digits of `n` put before `tail`, with `fuel` digits at most. -/
def decDigits : Nat → Nat → Bytes → Bytes
  | 0, _, tail => tail
  | fuel + 1, n, tail =>
    let tail' := BitVec.ofNat 8 (48 + n % 10) :: tail
    if n < 10 then tail' else decDigits fuel (n / 10) tail'

/-- A natural in base 10, without leading zeros (30 R74). -/
def decText (n : Nat) : Bytes := decDigits (n + 1) n []

/-- The tag of a sentence (30 R73). -/
def tagText (own : Bool) : Bytes := if own then tagVdo else tagVdm

/-- Field 7 (30 R75). -/
def fillField (x : Fragment) : Bytes :=
  match x.sumText with
  | none => decText x.fill
  | some t => decText x.fill ++ star :: t

/-- Fields joined by commas (30 R70). -/
def joinFields : List Bytes → Bytes
  | [] => []
  | [f] => f
  | f :: g :: r => f ++ comma :: joinFields (g :: r)

/-- The seven fields of a fragment (30 R72). -/
def fragmentFields (x : Fragment) : List Bytes :=
  [tagText x.own, decText x.count, decText x.index, x.seqId, x.channel, x.armoured, fillField x]

/-- The sentence of a fragment (30 R70). -/
def fragmentSentence (x : Fragment) : Bytes := joinFields (fragmentFields x)

/-- A command word from its operation code and its two fields (30 R90, R91). -/
def cmdWord (op : BitVec 4) (len : BitVec 12) (low : BitVec 16) : CmdWord := op ++ len ++ low

/-- The option bits of `CMD.P` (30 R92). -/
def optionBits : Option Bool → BitVec 16
  | none => 0
  | some false => 2
  | some true => 3

/-- A read command's word (30 R90). -/
def readWord (op : BitVec 4) (s l : Nat) : CmdWord := cmdWord op (BitVec.ofNat 12 l) (BitVec.ofNat 16 s)

/-- What to present so that an instruction is decoded: written from the encoding tables of 30_encoding.md. -/
def encode : Instr → Issue
  | .spInit c => .command (cmdWord 0x0 0 (if c then 1 else 0)) .none
  | .spParse o S => .command (cmdWord 0x1 0 (optionBits o)) (.text S)
  | .spParsef L => .command (cmdWord 0x2 0 0) (.fields L)
  | .bcLoad f t => .command (cmdWord 0x8 0 (BitVec.ofNat 16 f)) (.text t)
  | .bcLen => .command (cmdWord 0x9 0 0) .none
  | .bcRdu s l => .command (readWord 0xA s l) .none
  | .bcRdi s l => .command (readWord 0xB s l) .none
  | .bcRds s l => .command (readWord 0xC s l) .none
  | .bcRdb s l => .command (readWord 0xD s l) .none
  | .cmdReserved3 r b => .command ((0x3 : BitVec 4) ++ r) b
  | .cmdReserved4 r b => .command ((0x4 : BitVec 4) ++ r) b
  | .cmdReserved5 r b => .command ((0x5 : BitVec 4) ++ r) b
  | .cmdReserved6 r b => .command ((0x6 : BitVec 4) ++ r) b
  | .cmdReserved7 r b => .command ((0x7 : BitVec 4) ++ r) b
  | .cmdReservedE r b => .command ((0xE : BitVec 4) ++ r) b
  | .cmdReservedF r b => .command ((0xF : BitVec 4) ++ r) b
  | .sentSingle x => .sentence (fragmentSentence x)
  | .sentFirst x => .sentence (fragmentSentence x)
  | .sentMiddle x => .sentence (fragmentSentence x)
  | .sentFinal x => .sentence (fragmentSentence x)
  | .sentBadseq x => .sentence (fragmentSentence x)
  | .tagAivdmAivdo own => .tag (if own then 0x21414956444F else 0x21414956444D)
  | .dispT0 ch => .typeField 0 ch
  | .dispT1 ch => .typeField 1 ch
  | .dispT2 ch => .typeField 2 ch
  | .dispT3 ch => .typeField 3 ch
  | .dispT4 ch => .typeField 4 ch
  | .dispT5 ch => .typeField 5 ch
  | .dispT6 ch => .typeField 6 ch
  | .dispT7 ch => .typeField 7 ch
  | .dispT8 ch => .typeField 8 ch
  | .dispT9 ch => .typeField 9 ch
  | .dispT10 ch => .typeField 10 ch
  | .dispT11 ch => .typeField 11 ch
  | .dispT12 ch => .typeField 12 ch
  | .dispT13 ch => .typeField 13 ch
  | .dispT14 ch => .typeField 14 ch
  | .dispT15 ch => .typeField 15 ch
  | .dispT16 ch => .typeField 16 ch
  | .dispT17 ch => .typeField 17 ch
  | .dispT18 ch => .typeField 18 ch
  | .dispT19 ch => .typeField 19 ch
  | .dispT20 ch => .typeField 20 ch
  | .dispT21 ch => .typeField 21 ch
  | .dispT22 ch => .typeField 22 ch
  | .dispT23 ch => .typeField 23 ch
  | .dispT24 ch => .typeField 24 ch
  | .dispT25 ch => .typeField 25 ch
  | .dispT26 ch => .typeField 26 ch
  | .dispT27 ch => .typeField 27 ch
  | .dispT28 ch => .typeField 28 ch
  | .dispT29 ch => .typeField 29 ch
  | .dispT30 ch => .typeField 30 ch
  | .dispT31 ch => .typeField 31 ch
  | .dispT32 ch => .typeField 32 ch
  | .dispT33 ch => .typeField 33 ch
  | .dispT34 ch => .typeField 34 ch
  | .dispT35 ch => .typeField 35 ch
  | .dispT36 ch => .typeField 36 ch
  | .dispT37 ch => .typeField 37 ch
  | .dispT38 ch => .typeField 38 ch
  | .dispT39 ch => .typeField 39 ch
  | .dispT40 ch => .typeField 40 ch
  | .dispT41 ch => .typeField 41 ch
  | .dispT42 ch => .typeField 42 ch
  | .dispT43 ch => .typeField 43 ch
  | .dispT44 ch => .typeField 44 ch
  | .dispT45 ch => .typeField 45 ch
  | .dispT46 ch => .typeField 46 ch
  | .dispT47 ch => .typeField 47 ch
  | .dispT48 ch => .typeField 48 ch
  | .dispT49 ch => .typeField 49 ch
  | .dispT50 ch => .typeField 50 ch
  | .dispT51 ch => .typeField 51 ch
  | .dispT52 ch => .typeField 52 ch
  | .dispT53 ch => .typeField 53 ch
  | .dispT54 ch => .typeField 54 ch
  | .dispT55 ch => .typeField 55 ch
  | .dispT56 ch => .typeField 56 ch
  | .dispT57 ch => .typeField 57 ch
  | .dispT58 ch => .typeField 58 ch
  | .dispT59 ch => .typeField 59 ch
  | .dispT60 ch => .typeField 60 ch
  | .dispT61 ch => .typeField 61 ch
  | .dispT62 ch => .typeField 62 ch
  | .dispT63 ch => .typeField 63 ch

/-! ### Words as the opcode table numbers them -/

/-- The bulk operand of zeros that a command word's format takes (30 R90): the empty byte string, the empty field
list, or none. -/
def emptyBulk (w : CmdWord) : Bulk :=
  match (w.extractLsb' 28 4).toNat with
  | 1 => .text []
  | 2 => .fields []
  | 8 => .text []
  | _ => .none

/-- `n` bytes of a number, the least significant first. -/
def bytesOfNat : Nat → Nat → Bytes
  | 0, _ => []
  | n + 1, w => BitVec.ofNat 8 w :: bytesOfNat n (w / 256)

/-- What an opcode-table word presents: 32 bits a command word, 48 bits a tag, 6 bits (in one byte) a type
discriminator with an empty channel, seven bytes or more a sentence. -/
def issueOfTableWord (nbits w : Nat) : Option Issue :=
  if 2 ^ nbits ≤ w then none
  else if nbits = 32 then some (.command (BitVec.ofNat 32 w) (emptyBulk (BitVec.ofNat 32 w)))
  else if nbits = 48 then some (.tag (BitVec.ofNat 48 w))
  else if nbits = 6 ∨ nbits = 8 then
    if w < 64 then some (.typeField (BitVec.ofNat 6 w) []) else none
  else if 56 ≤ nbits ∧ nbits % 8 = 0 then some (.sentence (bytesOfNat (nbits / 8) w))
  else none

/-- The instruction the decoder reads from an opcode-table word. -/
def decodeTableWord (nbits w : Nat) : Option Instr :=
  match issueOfTableWord nbits w with
  | none => none
  | some x =>
    match decode x with
    | .ok i => some i
    | .error _ => none

end Sys2Proof
end

