-- ==== Sys2Proof/Machine/State.lean ====
section
/-! DEFINITION. The state of one instance of AISP-FE as plain data (spec/10_state.md R20 to R40), the reasons a step
can stop, and the state after reset. -/

namespace Sys2Proof.Machine

/-- The validity tag (10 R30, R31). -/
inductive Validity where
  | valid | incomplete | invalid | unsupported
  deriving DecidableEq, Repr

/-- The error kinds (10 R30, 60 R212); kind `none` is the absent option. -/
inductive Kind where
  | structural | checksum | sequence | payload | unsupportedType
  deriving DecidableEq, Repr

/-- The cause inside kind Payload (10 R30, 60 R213); `none` is the absent option. -/
inductive Cause where
  | malformedPayload | rangeError | invalidSymbol | tooShort | external
  deriving DecidableEq, Repr

/-- `RESULT` (10 R30). -/
structure Report where
  validity : Validity
  kind : Option Kind
  exc : Option Cause
  msg : Bytes
  aisType : Option Sym
  decoder : Option Decoder
  channel : Bytes
  deriving DecidableEq, Repr

/-- The three codec exceptions (60 R210); `invalidSymbol` carries the index of the byte. -/
inductive CodecExc where
  | malformedPayload
  | rangeError
  | invalidSymbol (k : Nat)
  deriving DecidableEq, Repr

/-- What a codec operation returns when it does not raise (40 R101 to R116). -/
inductive CodecValue where
  /-- `BC.LOAD`: ok, no value -/
  | done
  /-- `BC.LEN`, `BC.RDU` -/
  | nat (n : Nat)
  /-- `BC.RDI` -/
  | int (z : Int)
  /-- `BC.RDS` -/
  | string (s : Bytes)
  /-- `BC.RDB` -/
  | buffer (b : Bytes)
  deriving DecidableEq, Repr

/-- What the last codec operation returned to its issuer (40 R100: `ok(value)` or one named exception). -/
inductive Answer where
  | none
  | ok (v : CodecValue)
  | raised (e : CodecExc)
  deriving DecidableEq, Repr

/-- One reassembly context (10 R23): the next fragment index and the armoured text so far. -/
structure CtxEntry where
  next : Nat
  acc : Bytes
  deriving DecidableEq, Repr

/-- The context map (10 R23) as a list of pairs, keys strictly rising (log 10). -/
abbrev Ctx := List (Bytes × CtxEntry)

/-- The state. The first six fields are the spec's (10 R20; `initialised` is 70 R241); `params` and `mm` are the
arguments of the model (00 R8) as plain data; `ret`, `draws` and `input` are the model's own (log 5, 6, 1). -/
structure State where
  /-- `CHK_DEFAULT` (10 R21) -/
  chkDefault : Bool
  /-- `CTX` (10 R23) -/
  ctx : Ctx
  /-- `BC.TEXT` (10 R29) -/
  text : Bytes
  /-- `BC.FILL` (10 R29) -/
  fill : Nat
  /-- `RESULT` (10 R30) -/
  result : Option Report
  /-- an `SP.INIT` has been issued (70 R241) -/
  initialised : Bool
  /-- what the last codec operation returned (40 R100) -/
  ret : Answer
  /-- how many free message texts have been drawn (10 R33) -/
  draws : Nat
  /-- `MIN_BITS`, `CTX_CAP`, `TEXT_MAX`, `SENT_MAX` (00 R8), the `mmsi` threshold (93 U12, log 27) -/
  params : Params
  /-- the Message Model (41 R130) -/
  mm : Oracle
  /-- what has been presented and not yet run, oldest first (20 R61) -/
  input : List Issue
  deriving DecidableEq, Repr

/-- Nothing stops this block with a fault: a codec exception is returned to its issuer (40 R100) or becomes a result
(60 R220), and both are next states (log 15). So there is no constructor. -/
inductive Fault where
  deriving DecidableEq, Repr

/-- Why an operation has no meaning. -/
inductive Refusal where
  /-- An instruction without a meaning in this model, by its mnemonic. Raised by an arm of `exec` only. Safe. -/
  | notModelled (mnemonic : String)
  /-- A reserved command code (30 R94: "have no meaning. A model refuses them"). Raised by the meanings of the seven
  reserved rows. Safe. -/
  | reservedCommand (op : Nat)
  /-- What was presented decodes into no instruction (30 R94 for command words; 30 R71, R73, R74 for the model's own
  sentence and tag forms). Raised by `step`. Safe. -/
  | undecodable (e : DecodeError)
  /-- An operation before the first `SP.INIT` (70 R241: "it refuses it"). Raised by every meaning but `SP.INIT`'s and
  the reserved rows'. Safe. -/
  | notInitialised
  /-- An operation that would exceed a finite `SENT_MAX` (10 R26, 70 R256). Raised by `SP.PARSE`. Safe. -/
  | sentenceTooLong
  /-- An operation that would exceed a finite `TEXT_MAX` (10 R26, 70 R256). Raised by `BC.LOAD`, step 7, `SENT.FIRST`
  and `SENT.MIDDLE`. Safe. -/
  | textTooLong
  /-- An operation that would exceed a finite `CTX_CAP` (10 R26, 70 R256). Raised by `SENT.FIRST` and `SENT.MIDDLE`.
  Safe. -/
  | tooManyContexts
  /-- A host's read of `RESULT` while it is `none` (10 R40: "a model gives such a read no meaning"). Raised by
  `State.readResult`. Safe. -/
  | resultNotWritten
  deriving DecidableEq, Repr

/-- The state before the first `SP.INIT`: unspecified (70 R241); every operation but `SP.INIT` is refused in it, so no
value of it can be seen (log 4). -/
def State.powerOn : State :=
  { chkDefault := false, ctx := [], text := [], fill := 0, result := none, initialised := false, ret := .none,
    draws := 0, params := Params.default, mm := Oracle.default, input := [] }

/-- The state right after reset, which is `SP.INIT(c)` (10 R40, 70 R240), with `c` = 0 (DESIGN CHOICE, log 3). -/
def State.reset : State :=
  { chkDefault := false, ctx := [], text := [], fill := 0, result := none, initialised := true, ret := .none,
    draws := 0, params := Params.default, mm := Oracle.default, input := [] }

end Sys2Proof.Machine
end

