-- ==== Sys2Proof/Machine/Flags.lean ====
section
/-! DEFINITION. The condition code and its numbers: the result word a host reads and the status of a codec operation
(spec/30_encoding.md R93). -/

namespace Sys2Proof.Machine

/-- Numbers of the validity tags (30 R93). -/
def Validity.code : Validity → Nat
  | .valid => 0
  | .incomplete => 1
  | .invalid => 2
  | .unsupported => 3

/-- Numbers of the kinds (30 R93); none is 0. -/
def kindCode : Option Kind → Nat
  | none => 0
  | some .structural => 1
  | some .checksum => 2
  | some .sequence => 3
  | some .payload => 4
  | some .unsupportedType => 5

/-- Numbers of the causes (30 R93, 60 R213); none is 0. -/
def causeCode : Option Cause → Nat
  | none => 0
  | some .malformedPayload => 1
  | some .rangeError => 2
  | some .invalidSymbol => 3
  | some .tooShort => 4
  | some .external => 5

/-- Numbers of the decoders (30 R86, R93). -/
def decoderCode : Decoder → Nat
  | .dec1to3 => 0
  | .dec4 => 1
  | .dec5 => 2
  | .dec8 => 3
  | .dec14 => 4
  | .dec18 => 5
  | .dec19 => 6
  | .dec21 => 7
  | .dec24 => 8
  | .dec27 => 9

/-- The result word (30 R93): `[1:0]` validity, `[4:2]` kind, `[7:5]` exc, `[8]` aisType present, `[14:9]` aisType,
`[15]` decoder present, `[19:16]` decoder, `[31:20]` zero. -/
def Report.word (r : Report) : BitVec 32 :=
  BitVec.ofNat 32
    (r.validity.code
      + 2 ^ 2 * kindCode r.kind
      + 2 ^ 5 * causeCode r.exc
      + (match r.aisType with
         | none => 0
         | some t => 2 ^ 8 + 2 ^ 9 * t.toNat)
      + (match r.decoder with
         | none => 0
         | some d => 2 ^ 15 + 2 ^ 16 * decoderCode d))

/-- The result word of the state; none while `RESULT` is none. -/
def State.resultWord (s : State) : Option (BitVec 32) := s.result.map Report.word

/-- A host's read of `RESULT` (30 R93): the word, and the channel and the message beside it; refused while `RESULT` is
`none` (10 R40). -/
def State.readResult (s : State) : Host.Outcome (BitVec 32 × Bytes × Bytes) Fault Refusal :=
  match s.result with
  | none => .refused .resultNotWritten
  | some r => .next (r.word, r.channel, r.msg)

/-- The 2-bit status a codec operation returns beside its value (30 R93); none when no codec operation has answered. -/
def Answer.status : Answer → Option (BitVec 2)
  | .none => Option.none
  | .ok _ => some 0
  | .raised .malformedPayload => some 1
  | .raised .rangeError => some 2
  | .raised (.invalidSymbol _) => some 3

/-- The cause a codec exception becomes in `RESULT` (60 R213). -/
def causeOf : CodecExc → Cause
  | .malformedPayload => .malformedPayload
  | .rangeError => .rangeError
  | .invalidSymbol _ => .invalidSymbol

end Sys2Proof.Machine
end

