-- ==== Sys2Proof/Machine/Operands.lean ====
section
/-! DEFINITION. Operand assembly: the checksum (spec/30_encoding.md R76), the armour code (R80), the six-bit alphabet
(R82), and the payload bits every reader shares (spec/20_memory.md R51, R52; spec/40_bit_codec.md R104). -/

namespace Sys2Proof.Machine

/-! ### The checksum -/

/-- The exclusive OR of a byte string (42 R165); 0 over no bytes. -/
def xorBytes : Bytes → Byte
  | [] => 0
  | b :: r => b ^^^ xorBytes r

/-- The bytes the checksum covers (30 R76): everything after the first byte, up to the first `*`. -/
def checksumSpan (S : Bytes) : Bytes := (S.takeWhile fun b => b != star).drop 1

/-- The `d`-th character of `0123456789ABCDEF` (30 R76). -/
def hexDigit (d : Nat) : Byte := if d < 10 then BitVec.ofNat 8 (48 + d) else BitVec.ofNat 8 (55 + d)

/-- An 8-bit value as two hexadecimal digits, high nibble first (30 R76). -/
def renderHex (x : Byte) : Bytes := [hexDigit (x.toNat / 16), hexDigit (x.toNat % 16)]

/-- `ChecksumMatches` (30 R76): the text after the first `*` is exactly the two computed digits. -/
def checksumMatches (S : Bytes) : Bool := decide (afterStar S = some (renderHex (xorBytes (checksumSpan S))))

/-- Whether step 2 runs (10 R22, 42 R156). -/
def effectiveCheck (opt : Option Bool) (chkDefault : Bool) : Bool :=
  match opt with
  | some b => b
  | none => chkDefault

/-! ### Symbols and payload bits -/

/-- `Dearmour` (30 R80). -/
def dearmour (b : Byte) : Option Sym :=
  if 48 ≤ b.toNat ∧ b.toNat ≤ 87 then some (BitVec.ofNat 6 (b.toNat - 48))
  else if 96 ≤ b.toNat ∧ b.toNat ≤ 119 then some (BitVec.ofNat 6 (b.toNat - 56))
  else none

/-- `Alpha` (30 R82). -/
def alpha (v : Sym) : Byte := if v.toNat ≤ 31 then BitVec.ofNat 8 (v.toNat + 64) else BitVec.ofNat 8 v.toNat

/-- `Sym(k)` (40 R104): the symbol of byte `k`, or `InvalidSymbol(k)`. The rule requires `k < len(text)`, which the
span checks of every reader guarantee; past the end this answers `InvalidSymbol(k)` (log 11). -/
def sym (text : Bytes) (k : Nat) : Except CodecExc Sym :=
  match text[k]? with
  | some b =>
    match dearmour b with
    | some v => .ok v
    | none => .error (.invalidSymbol k)
  | none => .error (.invalidSymbol k)

/-- `n` symbols from index `k` in increasing order; the first invalid one raises (40 R104, R106 check 4). -/
def fetch (text : Bytes) : Nat → Nat → Except CodecExc (List Sym)
  | _, 0 => .ok []
  | k, n + 1 =>
    match sym text k with
    | .error e => .error e
    | .ok v =>
      match fetch text (k + 1) n with
      | .error e => .error e
      | .ok vs => .ok (v :: vs)

/-- The bits of a symbol, bit 5 first (20 R52). -/
def symBits (v : Sym) : List Bool :=
  [v.getLsbD 5, v.getLsbD 4, v.getLsbD 3, v.getLsbD 2, v.getLsbD 1, v.getLsbD 0]

/-- How many symbols a read of `l` bits at `s` fetches: `s div 6` to `(s + l - 1) div 6` (20 R56). -/
def symCount (s l : Nat) : Nat := if l = 0 then 0 else (s + l - 1) / 6 - s / 6 + 1

/-- The payload bits `s` to `s + l - 1`, fetched as 20 R56 and 40 R104 say. All readers are this and a regrouping
(40 R119: "the same bits regrouped"). -/
def readBits (text : Bytes) (s l : Nat) : Except CodecExc (List Bool) :=
  match fetch text (s / 6) (symCount s l) with
  | .error e => .error e
  | .ok vs => .ok (((vs.flatMap symBits).drop (s % 6)).take l)

/-- Payload bit `a` (20 R52): bit `5 - (a mod 6)` of symbol `a div 6`; false where the symbol is invalid. -/
def payloadBit (text : Bytes) (a : Nat) : Bool :=
  match sym text (a / 6) with
  | .ok v => v.getLsbD (5 - a % 6)
  | .error _ => false

/-! ### Regrouping bits -/

/-- A list of bits as a number, the first most significant (20 R54). -/
def natOfBits (bs : List Bool) : Nat := bs.foldl (fun n b => 2 * n + b.toNat) 0

/-- `m` groups of `n` bits each. -/
def groups (n : Nat) : Nat → List Bool → List (List Bool)
  | 0, _ => []
  | m + 1, bs => bs.take n :: groups n m (bs.drop n)

/-- One character of a string read (40 R113). -/
def charOfBits (bs : List Bool) : Byte := alpha (BitVec.ofNat 6 (natOfBits bs))

/-- One byte of a buffer read: the first bit is bit 7, missing low bits are 0 (40 R116). -/
def byteOfBits (bs : List Bool) : Byte := BitVec.ofNat 8 (natOfBits bs * 2 ^ (8 - bs.length))

/-- `r & ~m` (00 R10). -/
def clearBits (r m : Nat) : Nat := r - (r &&& m)

/-- The two's-complement reading of an `l`-bit value (40 R110). -/
def signedValue (l r : Nat) : Int :=
  if l = 0 then 0
  else if r &&& 2 ^ (l - 1) ≠ 0 then (clearBits r (2 ^ (l - 1)) : Int) - (2 ^ (l - 1) : Nat)
  else (r : Int)

end Sys2Proof.Machine
end

