-- ==== Sys2Proof/Machine/Ops.lean ====
section
/-! DEFINITION. The shared operations: the context map (spec/00_scope.md R13), the codec slot (spec/10_state.md R29),
writing `RESULT` (R30, R33), raising a codec exception (spec/40_bit_codec.md R100) and the catch boundary that turns
one into a result (spec/60_exceptions.md R220), and asking the Message Model (spec/41_message_model_boundary.md R130,
R132). There is no return from an exception (60 R223). -/

namespace Sys2Proof.Machine

/-- The outcome of a step. -/
abbrev Outcome := Host.Outcome State Fault Refusal

/-- Go on from an outcome; a fault or a refusal ends it. -/
def andThen {α β : Type} (o : Host.Outcome α Fault Refusal) (k : α → Host.Outcome β Fault Refusal) :
    Host.Outcome β Fault Refusal :=
  match o with
  | .next a => k a
  | .fault f => .fault f
  | .refused r => .refused r

/-- Any operation but `SP.INIT` is refused before the first `SP.INIT` (70 R241). -/
def whenReady (s : State) (o : Outcome) : Outcome :=
  if s.initialised then o else .refused .notInitialised

/-- `n` does not exceed a capacity; `none` is unbounded (00 section 4). -/
def fits (cap : Option Nat) (n : Nat) : Bool :=
  match cap with
  | none => true
  | some m => decide (n ≤ m)

/-! ### The context map -/

/-- Byte strings in dictionary order, the order in which `CTX` lists its keys (log 10). -/
def bytesLt : Bytes → Bytes → Bool
  | _, [] => false
  | [], _ :: _ => true
  | a :: as, b :: bs => if a = b then bytesLt as bs else decide (a.toNat < b.toNat)

/-- The canonical form of the map: keys strictly rising. -/
abbrev Ctx.wf (c : Ctx) : Prop := c.Pairwise fun a b => bytesLt a.1 b.1 = true

/-- The canonical form of the block's one sparse store, `CTX` (20 R50; there is no byte-addressed memory). -/
abbrev Memory.wf (s : State) : Prop := Ctx.wf s.ctx

/-- `CtxGet(k)` (00 R13); none when there is no entry. -/
def ctxGet (k : Bytes) : Ctx → Option CtxEntry
  | [] => none
  | (k', e) :: r => if k' = k then some e else ctxGet k r

/-- `CtxHas(k)` (00 R13). -/
def ctxHas (k : Bytes) (c : Ctx) : Bool := (ctxGet k c).isSome

/-- `CtxPut(k, next, acc)` (00 R13): create or replace, keeping the keys in order. -/
def ctxPut (k : Bytes) (e : CtxEntry) : Ctx → Ctx
  | [] => [(k, e)]
  | (k', e') :: r =>
    if k' = k then (k, e) :: r
    else if bytesLt k k' then (k, e) :: (k', e') :: r
    else (k', e') :: ctxPut k e r

/-- `CtxDel(k)` (00 R13): nothing when there is no entry. -/
def ctxDel (k : Bytes) (c : Ctx) : Ctx := c.filter fun p => decide (p.1 ≠ k)

/-- `CtxDel(k)` on the state. -/
def dropContext (k : Bytes) (s : State) : State := { s with ctx := ctxDel k s.ctx }

/-- `CtxPut(k, next, acc)` on the state; refused when it would exceed a finite `TEXT_MAX` or `CTX_CAP` (10 R26). -/
def storeContext (k : Bytes) (next : Nat) (acc : Bytes) (s : State) : Outcome :=
  if fits s.params.textMax acc.length = false then .refused .textTooLong
  else if fits s.params.ctxCap (ctxPut k ⟨next, acc⟩ s.ctx).length = false then .refused .tooManyContexts
  else .next { s with ctx := ctxPut k ⟨next, acc⟩ s.ctx }

/-! ### The codec slot -/

/-- Replace the codec slot, whole (10 R29). -/
def withSlot (text : Bytes) (fill : Nat) (s : State) : State := { s with text := text, fill := fill }

/-- The slot becomes the zero-length codec (42 R163). -/
def emptySlot (s : State) : State := withSlot [] 0 s

/-- The construction of the codec, shared by `BC.LOAD` and step 7 (40 R101, 44 R190): the state with the slot loaded,
or `MalformedPayload`; refused when the text would exceed a finite `TEXT_MAX` (10 R26; log 20 on the order). -/
def loadSlot (text : Bytes) (fill : Nat) (s : State) : Host.Outcome (Except CodecExc State) Fault Refusal :=
  if text = [] ∧ fill = 0 then .next (.ok (emptySlot s))
  else if 6 * text.length ≤ fill then .next (.error .malformedPayload)
  else if fits s.params.textMax text.length then .next (.ok (withSlot text fill s))
  else .refused .textTooLong

/-! ### Answers and results -/

/-- A codec operation returns a value (40 R100): nothing but the answer changes. -/
def answer (v : CodecValue) (s : State) : State := { s with ret := .ok v }

/-- A codec operation raises (40 R100, 60 R211): nothing but the answer changes. -/
def raise (e : CodecExc) (s : State) : State := { s with ret := .raised e }

/-- Write `RESULT` (10 R30, R31). The message is the next free text (10 R33); the codec's answer is cleared, since a
parse call returns none (log 5). -/
def writeResult (v : Validity) (kind : Option Kind) (exc : Option Cause) (t : Option Sym) (d : Option Decoder)
    (ch : Bytes) (s : State) : State :=
  { s with
    result := some { validity := v, kind := kind, exc := exc, msg := Config.freeMessage s.draws, aisType := t,
                     decoder := d, channel := ch },
    draws := s.draws + 1,
    ret := .none }

/-- `Fail` (42 R152): the slot is emptied and `RESULT` written. -/
def fail (v : Validity) (kind : Kind) (ch : Bytes) (s : State) : State :=
  writeResult v (some kind) none none none ch (emptySlot s)

/-- `Incomplete` (43 R170). -/
def incomplete (ch : Bytes) (s : State) : State :=
  writeResult .incomplete none none none none ch (emptySlot s)

/-- The catch boundary (60 R220, 44 R190): whatever failed inside step 7 becomes an INVALID result of kind Payload.
No pc or mode is saved, no vector is taken; the slot and `CTX` stay as they are. -/
def catchPayload (cause : Cause) (t : Option Sym) (d : Option Decoder) (ch : Bytes) (s : State) : State :=
  writeResult .invalid (some .payload) (some cause) t d ch s

/-! ### The Message Model -/

/-- `BC.LEN` of a text and a fill count (40 R102). -/
def bitLen (text : Bytes) (fill : Nat) : Nat := 6 * text.length - fill

/-- The Message Model's answer (41 R130, R132): `tooShort` exactly when the length is below the decoder's minimum,
for a decoder whose minimum the table gives; the oracle's own answer where the minimum is OPEN. -/
def messageModel (p : Params) (mm : Oracle) (q : Query) : Verdict :=
  match p.minBits.lookup q.decoder with
  | none => mm.answer q
  | some m =>
    if bitLen q.text q.fill < m then .tooShort
    else
      match mm.answer q with
      | .external msg => .external msg
      | _ => .ok

end Sys2Proof.Machine
end

