-- ==== Sys2Proof/Machine/Codec.lean ====
section
/-! DEFINITION. The Bit Codec operations (spec/40_bit_codec.md): `BC.LOAD`, `BC.LEN`, `BC.RDU`, `BC.RDI`, `BC.RDS`,
`BC.RDB`, and the pseudo-operations `RD.TYPE`, `RD.REPEAT`, `RD.MMSI` (spec/30_encoding.md R96). -/

namespace Sys2Proof.Machine

/-! ### The readers, on a text and a fill count -/

/-- `BC.RDU` (40 R106, R107): zero length, then length above 31, then span, then symbols. -/
def rdu (text : Bytes) (fill s l : Nat) : Except CodecExc Nat :=
  if l = 0 then .ok 0
  else if 31 < l then .error .rangeError
  else if bitLen text fill < s + l then .error .rangeError
  else
    match readBits text s l with
    | .error e => .error e
    | .ok bs => .ok (natOfBits bs)

/-- `BC.RDI` (40 R110): `BC.RDU` and the sign reinterpretation. -/
def rdi (text : Bytes) (fill s l : Nat) : Except CodecExc Int :=
  match rdu text fill s l with
  | .error e => .error e
  | .ok r => .ok (signedValue l r)

/-- `BC.RDS` (40 R112, R113): length zero or not a multiple of 6, then span, then symbols. -/
def rds (text : Bytes) (fill s l : Nat) : Except CodecExc Bytes :=
  if l = 0 ∨ l % 6 ≠ 0 then .error .rangeError
  else if bitLen text fill < s + l then .error .rangeError
  else
    match readBits text s l with
    | .error e => .error e
    | .ok bs => .ok ((groups 6 (l / 6) bs).map charOfBits)

/-- `BC.RDB` (40 R115, R116): span, then zero length, then symbols. -/
def rdb (text : Bytes) (fill s l : Nat) : Except CodecExc Bytes :=
  if bitLen text fill < s + l then .error .rangeError
  else if l = 0 then .ok []
  else
    match readBits text s l with
    | .error e => .error e
    | .ok bs => .ok ((groups 8 ((l + 7) / 8) bs).map byteOfBits)

/-! ### The integer reader's own algorithm (40 R108) -/

/-- The loop of 40 R108: while `got < l`, shift the accumulator left 6 and OR in the next symbol. -/
def shiftLoop (text : Bytes) (l : Nat) : Nat → Nat → Nat → Nat → Except CodecExc (Nat × Nat)
  | 0, acc, got, _ => .ok (acc, got)
  | fuel + 1, acc, got, k =>
    if got < l then
      match sym text k with
      | .error e => .error e
      | .ok v => shiftLoop text l fuel ((acc <<< 6) ||| v.toNat) (got + 6) (k + 1)
    else .ok (acc, got)

/-- The algorithm of 40 R108 for `l >= 1`; it equals the value of R107, which is what `rdu` computes. -/
def rduByShifting (text : Bytes) (s l : Nat) : Except CodecExc Nat :=
  match sym text (s / 6) with
  | .error e => .error e
  | .ok v =>
    match shiftLoop text l l (v.toNat &&& (2 ^ (6 - s % 6) - 1)) (6 - s % 6) (s / 6 + 1) with
    | .error e => .error e
    | .ok (acc, got) => .ok (acc >>> (got - l))

/-! ### The operations -/

/-- A reader returns its value or its exception (40 R100). -/
def reply {α : Type} (r : Except CodecExc α) (wrap : α → CodecValue) (s : State) : Outcome :=
  match r with
  | .ok v => .next (answer (wrap v) s)
  | .error e => .next (raise e s)

/-- `BC.LOAD` (40 R101): on `MalformedPayload` the slot keeps its content (60 R211). -/
def execBcLoad (fill : Nat) (text : Bytes) (s : State) : Outcome :=
  whenReady s <|
    andThen (loadSlot text fill s) fun
      | .ok s' => .next (answer .done s')
      | .error e => .next (raise e s)

/-- `BC.LEN` (40 R102). -/
def execBcLen (s : State) : Outcome :=
  whenReady s (.next (answer (.nat (bitLen s.text s.fill)) s))

/-- `BC.RDU` (40 R105 to R109). -/
def execBcRdu (start length : Nat) (s : State) : Outcome :=
  whenReady s (reply (rdu s.text s.fill start length) .nat s)

/-- `BC.RDI` (40 R110). -/
def execBcRdi (start length : Nat) (s : State) : Outcome :=
  whenReady s (reply (rdi s.text s.fill start length) .int s)

/-- `BC.RDS` (40 R112 to R114). -/
def execBcRds (start length : Nat) (s : State) : Outcome :=
  whenReady s (reply (rds s.text s.fill start length) .string s)

/-- `BC.RDB` (40 R115 to R117). -/
def execBcRdb (start length : Nat) (s : State) : Outcome :=
  whenReady s (reply (rdb s.text s.fill start length) .buffer s)

/-! ### The pseudo-operations -/

/-- `RD.TYPE` expands to `BC.RDU 0, 6` (30 R96). -/
def rdTypeExpansion : Instr := .bcRdu 0 6

/-- `RD.REPEAT` expands to `BC.RDU 6, 2` (30 R96, 41 R135). -/
def rdRepeatExpansion : Instr := .bcRdu 6 2

/-- `RD.MMSI` expands to `BC.RDU 8, 30` when `BC.LEN` reaches the `mmsi` threshold, and otherwise answers "not
available" without a read (30 R96, 41 R135): none. The threshold is a parameter, as 93 U12 has it, with the source's
38 as its default: that figure is unaudited (UNVERIFIED, log 27). -/
def rdMmsiExpansion (s : State) : Option Instr :=
  if s.params.mmsiBits ≤ bitLen s.text s.fill then some (.bcRdu 8 30) else none

end Sys2Proof.Machine
end

