-- ==== Sys2Proof/Machine/Disp.lean ====
section
/-! DEFINITION. The 64 dispatch cases of step 7 (spec/44_decode_dispatch.md R193 to R197, spec/30_encoding.md R85):
`DISP.T0` to `DISP.T63`, each on the slot as it is loaded, with the channel the result reports. -/

namespace Sys2Proof.Machine

/-- `Dispatch(t)` (30 R85): the table of decoders. -/
def dispatchTable (t : Sym) : Option Decoder :=
  match t.toNat with
  | 1 => some .dec1to3
  | 2 => some .dec1to3
  | 3 => some .dec1to3
  | 4 => some .dec4
  | 5 => some .dec5
  | 8 => some .dec8
  | 14 => some .dec14
  | 18 => some .dec18
  | 19 => some .dec19
  | 21 => some .dec21
  | 24 => some .dec24
  | 27 => some .dec27
  | _ => none

/-- What the Message Model is asked in step 7 (41 R130). -/
def dispatchQuery (d : Decoder) (t : Sym) (ch : Bytes) (s : State) : Query :=
  { decoder := d, aisType := t, text := s.text, fill := s.fill, channel := ch }

/-- A type with a decoder (44 R195 to R197): the result by the Message Model's answer. -/
def dispatchTo (d : Decoder) (t : Sym) (ch : Bytes) (s : State) : State :=
  match messageModel s.params s.mm (dispatchQuery d t ch s) with
  | .tooShort => catchPayload .tooShort (some t) (some d) ch s
  | .external _ => catchPayload .external (some t) (some d) ch s
  | .ok => writeResult .valid none none (some t) (some d) ch s

/-- A type without a decoder (44 R194): UNSUPPORTED, the Message Model is not asked. -/
def unsupportedType (t : Sym) (ch : Bytes) (s : State) : State :=
  writeResult .unsupported (some .unsupportedType) none (some t) none ch s

/-- `DISP.T0` (44 R194). -/
def execDispT0 (ch : Bytes) (s : State) : Outcome := whenReady s (.next (unsupportedType 0 ch s))

/-- `DISP.T1` (44 R193). -/
def execDispT1 (ch : Bytes) (s : State) : Outcome := whenReady s (.next (dispatchTo .dec1to3 1 ch s))

/-- `DISP.T2` (44 R193). -/
def execDispT2 (ch : Bytes) (s : State) : Outcome := whenReady s (.next (dispatchTo .dec1to3 2 ch s))

/-- `DISP.T3` (44 R193). -/
def execDispT3 (ch : Bytes) (s : State) : Outcome := whenReady s (.next (dispatchTo .dec1to3 3 ch s))

/-- `DISP.T4` (44 R193). -/
def execDispT4 (ch : Bytes) (s : State) : Outcome := whenReady s (.next (dispatchTo .dec4 4 ch s))

/-- `DISP.T5` (44 R193). -/
def execDispT5 (ch : Bytes) (s : State) : Outcome := whenReady s (.next (dispatchTo .dec5 5 ch s))

/-- `DISP.T6` (44 R194). -/
def execDispT6 (ch : Bytes) (s : State) : Outcome := whenReady s (.next (unsupportedType 6 ch s))

/-- `DISP.T7` (44 R194). -/
def execDispT7 (ch : Bytes) (s : State) : Outcome := whenReady s (.next (unsupportedType 7 ch s))

/-- `DISP.T8` (44 R193). -/
def execDispT8 (ch : Bytes) (s : State) : Outcome := whenReady s (.next (dispatchTo .dec8 8 ch s))

/-- `DISP.T9` (44 R194). -/
def execDispT9 (ch : Bytes) (s : State) : Outcome := whenReady s (.next (unsupportedType 9 ch s))

/-- `DISP.T10` (44 R194). -/
def execDispT10 (ch : Bytes) (s : State) : Outcome := whenReady s (.next (unsupportedType 10 ch s))

/-- `DISP.T11` (44 R194). -/
def execDispT11 (ch : Bytes) (s : State) : Outcome := whenReady s (.next (unsupportedType 11 ch s))

/-- `DISP.T12` (44 R194). -/
def execDispT12 (ch : Bytes) (s : State) : Outcome := whenReady s (.next (unsupportedType 12 ch s))

/-- `DISP.T13` (44 R194). -/
def execDispT13 (ch : Bytes) (s : State) : Outcome := whenReady s (.next (unsupportedType 13 ch s))

/-- `DISP.T14` (44 R193). -/
def execDispT14 (ch : Bytes) (s : State) : Outcome := whenReady s (.next (dispatchTo .dec14 14 ch s))

/-- `DISP.T15` (44 R194). -/
def execDispT15 (ch : Bytes) (s : State) : Outcome := whenReady s (.next (unsupportedType 15 ch s))

/-- `DISP.T16` (44 R194). -/
def execDispT16 (ch : Bytes) (s : State) : Outcome := whenReady s (.next (unsupportedType 16 ch s))

/-- `DISP.T17` (44 R194). -/
def execDispT17 (ch : Bytes) (s : State) : Outcome := whenReady s (.next (unsupportedType 17 ch s))

/-- `DISP.T18` (44 R193). -/
def execDispT18 (ch : Bytes) (s : State) : Outcome := whenReady s (.next (dispatchTo .dec18 18 ch s))

/-- `DISP.T19` (44 R193). -/
def execDispT19 (ch : Bytes) (s : State) : Outcome := whenReady s (.next (dispatchTo .dec19 19 ch s))

/-- `DISP.T20` (44 R194). -/
def execDispT20 (ch : Bytes) (s : State) : Outcome := whenReady s (.next (unsupportedType 20 ch s))

/-- `DISP.T21` (44 R193). -/
def execDispT21 (ch : Bytes) (s : State) : Outcome := whenReady s (.next (dispatchTo .dec21 21 ch s))

/-- `DISP.T22` (44 R194). -/
def execDispT22 (ch : Bytes) (s : State) : Outcome := whenReady s (.next (unsupportedType 22 ch s))

/-- `DISP.T23` (44 R194). -/
def execDispT23 (ch : Bytes) (s : State) : Outcome := whenReady s (.next (unsupportedType 23 ch s))

/-- `DISP.T24` (44 R193). -/
def execDispT24 (ch : Bytes) (s : State) : Outcome := whenReady s (.next (dispatchTo .dec24 24 ch s))

/-- `DISP.T25` (44 R194). -/
def execDispT25 (ch : Bytes) (s : State) : Outcome := whenReady s (.next (unsupportedType 25 ch s))

/-- `DISP.T26` (44 R194). -/
def execDispT26 (ch : Bytes) (s : State) : Outcome := whenReady s (.next (unsupportedType 26 ch s))

/-- `DISP.T27` (44 R193). -/
def execDispT27 (ch : Bytes) (s : State) : Outcome := whenReady s (.next (dispatchTo .dec27 27 ch s))

/-- `DISP.T28` (44 R194). -/
def execDispT28 (ch : Bytes) (s : State) : Outcome := whenReady s (.next (unsupportedType 28 ch s))

/-- `DISP.T29` (44 R194). -/
def execDispT29 (ch : Bytes) (s : State) : Outcome := whenReady s (.next (unsupportedType 29 ch s))

/-- `DISP.T30` (44 R194). -/
def execDispT30 (ch : Bytes) (s : State) : Outcome := whenReady s (.next (unsupportedType 30 ch s))

/-- `DISP.T31` (44 R194). -/
def execDispT31 (ch : Bytes) (s : State) : Outcome := whenReady s (.next (unsupportedType 31 ch s))

/-- `DISP.T32` (44 R194). -/
def execDispT32 (ch : Bytes) (s : State) : Outcome := whenReady s (.next (unsupportedType 32 ch s))

/-- `DISP.T33` (44 R194). -/
def execDispT33 (ch : Bytes) (s : State) : Outcome := whenReady s (.next (unsupportedType 33 ch s))

/-- `DISP.T34` (44 R194). -/
def execDispT34 (ch : Bytes) (s : State) : Outcome := whenReady s (.next (unsupportedType 34 ch s))

/-- `DISP.T35` (44 R194). -/
def execDispT35 (ch : Bytes) (s : State) : Outcome := whenReady s (.next (unsupportedType 35 ch s))

/-- `DISP.T36` (44 R194). -/
def execDispT36 (ch : Bytes) (s : State) : Outcome := whenReady s (.next (unsupportedType 36 ch s))

/-- `DISP.T37` (44 R194). -/
def execDispT37 (ch : Bytes) (s : State) : Outcome := whenReady s (.next (unsupportedType 37 ch s))

/-- `DISP.T38` (44 R194). -/
def execDispT38 (ch : Bytes) (s : State) : Outcome := whenReady s (.next (unsupportedType 38 ch s))

/-- `DISP.T39` (44 R194). -/
def execDispT39 (ch : Bytes) (s : State) : Outcome := whenReady s (.next (unsupportedType 39 ch s))

/-- `DISP.T40` (44 R194). -/
def execDispT40 (ch : Bytes) (s : State) : Outcome := whenReady s (.next (unsupportedType 40 ch s))

/-- `DISP.T41` (44 R194). -/
def execDispT41 (ch : Bytes) (s : State) : Outcome := whenReady s (.next (unsupportedType 41 ch s))

/-- `DISP.T42` (44 R194). -/
def execDispT42 (ch : Bytes) (s : State) : Outcome := whenReady s (.next (unsupportedType 42 ch s))

/-- `DISP.T43` (44 R194). -/
def execDispT43 (ch : Bytes) (s : State) : Outcome := whenReady s (.next (unsupportedType 43 ch s))

/-- `DISP.T44` (44 R194). -/
def execDispT44 (ch : Bytes) (s : State) : Outcome := whenReady s (.next (unsupportedType 44 ch s))

/-- `DISP.T45` (44 R194). -/
def execDispT45 (ch : Bytes) (s : State) : Outcome := whenReady s (.next (unsupportedType 45 ch s))

/-- `DISP.T46` (44 R194). -/
def execDispT46 (ch : Bytes) (s : State) : Outcome := whenReady s (.next (unsupportedType 46 ch s))

/-- `DISP.T47` (44 R194). -/
def execDispT47 (ch : Bytes) (s : State) : Outcome := whenReady s (.next (unsupportedType 47 ch s))

/-- `DISP.T48` (44 R194). -/
def execDispT48 (ch : Bytes) (s : State) : Outcome := whenReady s (.next (unsupportedType 48 ch s))

/-- `DISP.T49` (44 R194). -/
def execDispT49 (ch : Bytes) (s : State) : Outcome := whenReady s (.next (unsupportedType 49 ch s))

/-- `DISP.T50` (44 R194). -/
def execDispT50 (ch : Bytes) (s : State) : Outcome := whenReady s (.next (unsupportedType 50 ch s))

/-- `DISP.T51` (44 R194). -/
def execDispT51 (ch : Bytes) (s : State) : Outcome := whenReady s (.next (unsupportedType 51 ch s))

/-- `DISP.T52` (44 R194). -/
def execDispT52 (ch : Bytes) (s : State) : Outcome := whenReady s (.next (unsupportedType 52 ch s))

/-- `DISP.T53` (44 R194). -/
def execDispT53 (ch : Bytes) (s : State) : Outcome := whenReady s (.next (unsupportedType 53 ch s))

/-- `DISP.T54` (44 R194). -/
def execDispT54 (ch : Bytes) (s : State) : Outcome := whenReady s (.next (unsupportedType 54 ch s))

/-- `DISP.T55` (44 R194). -/
def execDispT55 (ch : Bytes) (s : State) : Outcome := whenReady s (.next (unsupportedType 55 ch s))

/-- `DISP.T56` (44 R194). -/
def execDispT56 (ch : Bytes) (s : State) : Outcome := whenReady s (.next (unsupportedType 56 ch s))

/-- `DISP.T57` (44 R194). -/
def execDispT57 (ch : Bytes) (s : State) : Outcome := whenReady s (.next (unsupportedType 57 ch s))

/-- `DISP.T58` (44 R194). -/
def execDispT58 (ch : Bytes) (s : State) : Outcome := whenReady s (.next (unsupportedType 58 ch s))

/-- `DISP.T59` (44 R194). -/
def execDispT59 (ch : Bytes) (s : State) : Outcome := whenReady s (.next (unsupportedType 59 ch s))

/-- `DISP.T60` (44 R194). -/
def execDispT60 (ch : Bytes) (s : State) : Outcome := whenReady s (.next (unsupportedType 60 ch s))

/-- `DISP.T61` (44 R194). -/
def execDispT61 (ch : Bytes) (s : State) : Outcome := whenReady s (.next (unsupportedType 61 ch s))

/-- `DISP.T62` (44 R194). -/
def execDispT62 (ch : Bytes) (s : State) : Outcome := whenReady s (.next (unsupportedType 62 ch s))

/-- `DISP.T63` (44 R194). -/
def execDispT63 (ch : Bytes) (s : State) : Outcome := whenReady s (.next (unsupportedType 63 ch s))

/-- The dispatch case of a type discriminator, run (44 R190: `Dispatch(t)` and what follows). -/
def runType (t : Sym) (ch : Bytes) (s : State) : Outcome :=
  match t.toNat with
  | 0 => execDispT0 ch s
  | 1 => execDispT1 ch s
  | 2 => execDispT2 ch s
  | 3 => execDispT3 ch s
  | 4 => execDispT4 ch s
  | 5 => execDispT5 ch s
  | 6 => execDispT6 ch s
  | 7 => execDispT7 ch s
  | 8 => execDispT8 ch s
  | 9 => execDispT9 ch s
  | 10 => execDispT10 ch s
  | 11 => execDispT11 ch s
  | 12 => execDispT12 ch s
  | 13 => execDispT13 ch s
  | 14 => execDispT14 ch s
  | 15 => execDispT15 ch s
  | 16 => execDispT16 ch s
  | 17 => execDispT17 ch s
  | 18 => execDispT18 ch s
  | 19 => execDispT19 ch s
  | 20 => execDispT20 ch s
  | 21 => execDispT21 ch s
  | 22 => execDispT22 ch s
  | 23 => execDispT23 ch s
  | 24 => execDispT24 ch s
  | 25 => execDispT25 ch s
  | 26 => execDispT26 ch s
  | 27 => execDispT27 ch s
  | 28 => execDispT28 ch s
  | 29 => execDispT29 ch s
  | 30 => execDispT30 ch s
  | 31 => execDispT31 ch s
  | 32 => execDispT32 ch s
  | 33 => execDispT33 ch s
  | 34 => execDispT34 ch s
  | 35 => execDispT35 ch s
  | 36 => execDispT36 ch s
  | 37 => execDispT37 ch s
  | 38 => execDispT38 ch s
  | 39 => execDispT39 ch s
  | 40 => execDispT40 ch s
  | 41 => execDispT41 ch s
  | 42 => execDispT42 ch s
  | 43 => execDispT43 ch s
  | 44 => execDispT44 ch s
  | 45 => execDispT45 ch s
  | 46 => execDispT46 ch s
  | 47 => execDispT47 ch s
  | 48 => execDispT48 ch s
  | 49 => execDispT49 ch s
  | 50 => execDispT50 ch s
  | 51 => execDispT51 ch s
  | 52 => execDispT52 ch s
  | 53 => execDispT53 ch s
  | 54 => execDispT54 ch s
  | 55 => execDispT55 ch s
  | 56 => execDispT56 ch s
  | 57 => execDispT57 ch s
  | 58 => execDispT58 ch s
  | 59 => execDispT59 ch s
  | 60 => execDispT60 ch s
  | 61 => execDispT61 ch s
  | 62 => execDispT62 ch s
  | _ => execDispT63 ch s

end Sys2Proof.Machine
end

