-- ==== Sys2Proof/Machine/Sentence.lean ====
section
/-! DEFINITION. Step 7 (spec/44_decode_dispatch.md R190) and the five sentence classes (spec/43_reassembly.md R171 to
R176). -/

namespace Sys2Proof.Machine

/-- `Decode(text, f, ch)` (44 R190): load, read the type at bit 0, dispatch. A load that fails empties the slot
(R191); a type read that fails leaves it loaded (R192). -/
def decodePayload (text : Bytes) (f : Nat) (ch : Bytes) (s : State) : Outcome :=
  andThen (loadSlot text f s) fun
    | .error e => .next (catchPayload (causeOf e) none none ch (emptySlot s))
    | .ok s' =>
      match rdu s'.text s'.fill 0 6 with
      | .error e => .next (catchPayload (causeOf e) none none ch s')
      | .ok t => runType (BitVec.ofNat 6 t) ch s'

/-- `SENT.SINGLE` (43 R171): `CTX` is neither read nor written. -/
def execSentSingle (x : Fragment) (s : State) : Outcome :=
  whenReady s <|
    if x.index ≠ 1 then .next (fail .invalid .sequence x.channel s)
    else decodePayload x.armoured x.fill x.channel s

/-- `SENT.FIRST` (43 R172, R176). -/
def execSentFirst (x : Fragment) (s : State) : Outcome :=
  whenReady s <|
    if x.fill ≠ 0 then .next (fail .unsupported .sequence x.channel (dropContext x.seqId s))
    else if ctxHas x.seqId s.ctx then .next (fail .invalid .sequence x.channel (dropContext x.seqId s))
    else
      andThen (storeContext x.seqId 2 x.armoured s) fun s' => .next (incomplete x.channel s')

/-- `SENT.MIDDLE` (43 R173, R176). -/
def execSentMiddle (x : Fragment) (s : State) : Outcome :=
  whenReady s <|
    if x.fill ≠ 0 then .next (fail .unsupported .sequence x.channel (dropContext x.seqId s))
    else
      match ctxGet x.seqId s.ctx with
      | none => .next (fail .invalid .sequence x.channel s)
      | some e =>
        if e.next ≠ x.index then .next (fail .invalid .sequence x.channel (dropContext x.seqId s))
        else
          andThen (storeContext x.seqId (x.index + 1) (e.acc ++ x.armoured) s) fun s' =>
            .next (incomplete x.channel s')

/-- `SENT.FINAL` (43 R174): the context is removed before step 7. -/
def execSentFinal (x : Fragment) (s : State) : Outcome :=
  whenReady s <|
    match ctxGet x.seqId s.ctx with
    | none => .next (fail .invalid .sequence x.channel s)
    | some e =>
      if e.next ≠ x.index then .next (fail .invalid .sequence x.channel (dropContext x.seqId s))
      else decodePayload (e.acc ++ x.armoured) x.fill x.channel (dropContext x.seqId s)

/-- `SENT.BADSEQ` (43 R175). -/
def execSentBadseq (x : Fragment) (s : State) : Outcome :=
  whenReady s (.next (fail .invalid .sequence x.channel (dropContext x.seqId s)))

/-- The class of a converted sentence, run (42 R152 `Fields`, 30 R78). -/
def runClass (x : Fragment) (s : State) : Outcome :=
  match classOf x.count x.index with
  | .single => execSentSingle x s
  | .first => execSentFirst x s
  | .middle => execSentMiddle x s
  | .final => execSentFinal x s
  | .badseq => execSentBadseq x s

end Sys2Proof.Machine
end

