-- ==== Sys2Proof/Machine/Parser.lean ====
section
/-! DEFINITION. The Sentence Parser's operations (spec/42_sentence_front_end.md): `SP.INIT`, `SP.PARSE`, `SP.PARSEF`;
the tag row (spec/30_encoding.md R73) and the seven reserved command codes (R94). -/

namespace Sys2Proof.Machine

/-- `SP.INIT` (42 R150): the one reset (70 R240, R242). The parameters, the Message Model and the model's own fields
`draws` and `input` are not the block's state and stay (log 21). -/
def execSpInit (c : Bool) (s : State) : Outcome :=
  .next
    { s with
      initialised := true
      chkDefault := c
      ctx := []
      text := []
      fill := 0
      result := none
      ret := .none }

/-- `TAG.AIVDM_AIVDO` (30 R73, 42 R152 step 1b): a supported tag lets the parse go on and writes nothing: "The two tags
are treated identically by every later step; which one was seen is not recorded in the result". -/
def execTagAivdmAivdo (_own : Bool) (s : State) : Outcome := whenReady s (.next s)

/-- `Fields(F)` (42 R152, R158, R159): the conversions, then the class. -/
def runFields (own : Bool) (cnt idx k ch a f7 : Bytes) (s : State) : Outcome :=
  match convertFields own cnt idx k ch a f7 with
  | none => .next (fail .invalid .structural ch s)
  | some x => runClass x s

/-- The seven steps on a field list (42 R152): field count (R154, R161), tag (R155), the checksum's verdict `sumOk`
(R157; always true for `SP.PARSEF`, R162), then `Fields`. -/
def parseFields (sumOk : Bool) (F : List Bytes) (s : State) : Outcome :=
  match F with
  | [tag, cnt, idx, k, ch, a, f7] =>
    match tagKind tag with
    | none => .next (fail .unsupported .structural ch s)
    | some own =>
      andThen (execTagAivdmAivdo own s) fun s' =>
        if sumOk then runFields own cnt idx k ch a f7 s'
        else .next (fail .invalid .checksum ch s')
  | _ => .next (fail .invalid .structural [] s)

/-- `SP.PARSE` (42 R151, R152); a sentence that exceeds a finite `SENT_MAX` is refused (10 R26, 70 R256). -/
def execSpParse (opt : Option Bool) (S : Bytes) (s : State) : Outcome :=
  whenReady s <|
    if fits s.params.sentMax S.length then
      parseFields (!effectiveCheck opt s.chkDefault || checksumMatches S) (split S) s
    else .refused .sentenceTooLong

/-- `SP.PARSEF` (42 R161, R162): no checksum whatever `CHK_DEFAULT` is. -/
def execSpParsef (L : List Bytes) (s : State) : Outcome :=
  whenReady s (parseFields true L s)

/-- `CMD.RESERVED_3` (30 R94: "have no meaning. A model refuses them"). -/
def execCmdReserved3 (_rest : BitVec 28) (_bulk : Bulk) (_s : State) : Outcome := .refused (.reservedCommand 0x3)

/-- `CMD.RESERVED_4` (30 R94: "have no meaning. A model refuses them"). -/
def execCmdReserved4 (_rest : BitVec 28) (_bulk : Bulk) (_s : State) : Outcome := .refused (.reservedCommand 0x4)

/-- `CMD.RESERVED_5` (30 R94: "have no meaning. A model refuses them"). -/
def execCmdReserved5 (_rest : BitVec 28) (_bulk : Bulk) (_s : State) : Outcome := .refused (.reservedCommand 0x5)

/-- `CMD.RESERVED_6` (30 R94: "have no meaning. A model refuses them"). -/
def execCmdReserved6 (_rest : BitVec 28) (_bulk : Bulk) (_s : State) : Outcome := .refused (.reservedCommand 0x6)

/-- `CMD.RESERVED_7` (30 R94: "have no meaning. A model refuses them"). -/
def execCmdReserved7 (_rest : BitVec 28) (_bulk : Bulk) (_s : State) : Outcome := .refused (.reservedCommand 0x7)

/-- `CMD.RESERVED_E` (30 R94: "have no meaning. A model refuses them"). -/
def execCmdReservedE (_rest : BitVec 28) (_bulk : Bulk) (_s : State) : Outcome := .refused (.reservedCommand 0xE)

/-- `CMD.RESERVED_F` (30 R94: "have no meaning. A model refuses them"). -/
def execCmdReservedF (_rest : BitVec 28) (_bulk : Bulk) (_s : State) : Outcome := .refused (.reservedCommand 0xF)

end Sys2Proof.Machine
end

