-- ==== Sys2Proof/Machine/Dispatch.lean ====
section
/-! DEFINITION. The meaning of each instruction: one arm per constructor of `Instr`. -/

namespace Sys2Proof.Machine

def exec (i : Instr) (s : State) : Host.Outcome State Fault Refusal :=
  match i with
  | .spInit c => Sys2Proof.Machine.execSpInit c s
  | .spParse opt sentence => Sys2Proof.Machine.execSpParse opt sentence s
  | .spParsef fields => Sys2Proof.Machine.execSpParsef fields s
  | .bcLoad fill text => Sys2Proof.Machine.execBcLoad fill text s
  | .bcLen => Sys2Proof.Machine.execBcLen s
  | .bcRdu start length => Sys2Proof.Machine.execBcRdu start length s
  | .bcRdi start length => Sys2Proof.Machine.execBcRdi start length s
  | .bcRds start length => Sys2Proof.Machine.execBcRds start length s
  | .bcRdb start length => Sys2Proof.Machine.execBcRdb start length s
  | .cmdReserved3 rest bulk => Sys2Proof.Machine.execCmdReserved3 rest bulk s
  | .cmdReserved4 rest bulk => Sys2Proof.Machine.execCmdReserved4 rest bulk s
  | .cmdReserved5 rest bulk => Sys2Proof.Machine.execCmdReserved5 rest bulk s
  | .cmdReserved6 rest bulk => Sys2Proof.Machine.execCmdReserved6 rest bulk s
  | .cmdReserved7 rest bulk => Sys2Proof.Machine.execCmdReserved7 rest bulk s
  | .cmdReservedE rest bulk => Sys2Proof.Machine.execCmdReservedE rest bulk s
  | .cmdReservedF rest bulk => Sys2Proof.Machine.execCmdReservedF rest bulk s
  | .sentSingle x => Sys2Proof.Machine.execSentSingle x s
  | .sentFirst x => Sys2Proof.Machine.execSentFirst x s
  | .sentMiddle x => Sys2Proof.Machine.execSentMiddle x s
  | .sentFinal x => Sys2Proof.Machine.execSentFinal x s
  | .sentBadseq x => Sys2Proof.Machine.execSentBadseq x s
  | .tagAivdmAivdo own => Sys2Proof.Machine.execTagAivdmAivdo own s
  | .dispT0 channel => Sys2Proof.Machine.execDispT0 channel s
  | .dispT1 channel => Sys2Proof.Machine.execDispT1 channel s
  | .dispT2 channel => Sys2Proof.Machine.execDispT2 channel s
  | .dispT3 channel => Sys2Proof.Machine.execDispT3 channel s
  | .dispT4 channel => Sys2Proof.Machine.execDispT4 channel s
  | .dispT5 channel => Sys2Proof.Machine.execDispT5 channel s
  | .dispT6 channel => Sys2Proof.Machine.execDispT6 channel s
  | .dispT7 channel => Sys2Proof.Machine.execDispT7 channel s
  | .dispT8 channel => Sys2Proof.Machine.execDispT8 channel s
  | .dispT9 channel => Sys2Proof.Machine.execDispT9 channel s
  | .dispT10 channel => Sys2Proof.Machine.execDispT10 channel s
  | .dispT11 channel => Sys2Proof.Machine.execDispT11 channel s
  | .dispT12 channel => Sys2Proof.Machine.execDispT12 channel s
  | .dispT13 channel => Sys2Proof.Machine.execDispT13 channel s
  | .dispT14 channel => Sys2Proof.Machine.execDispT14 channel s
  | .dispT15 channel => Sys2Proof.Machine.execDispT15 channel s
  | .dispT16 channel => Sys2Proof.Machine.execDispT16 channel s
  | .dispT17 channel => Sys2Proof.Machine.execDispT17 channel s
  | .dispT18 channel => Sys2Proof.Machine.execDispT18 channel s
  | .dispT19 channel => Sys2Proof.Machine.execDispT19 channel s
  | .dispT20 channel => Sys2Proof.Machine.execDispT20 channel s
  | .dispT21 channel => Sys2Proof.Machine.execDispT21 channel s
  | .dispT22 channel => Sys2Proof.Machine.execDispT22 channel s
  | .dispT23 channel => Sys2Proof.Machine.execDispT23 channel s
  | .dispT24 channel => Sys2Proof.Machine.execDispT24 channel s
  | .dispT25 channel => Sys2Proof.Machine.execDispT25 channel s
  | .dispT26 channel => Sys2Proof.Machine.execDispT26 channel s
  | .dispT27 channel => Sys2Proof.Machine.execDispT27 channel s
  | .dispT28 channel => Sys2Proof.Machine.execDispT28 channel s
  | .dispT29 channel => Sys2Proof.Machine.execDispT29 channel s
  | .dispT30 channel => Sys2Proof.Machine.execDispT30 channel s
  | .dispT31 channel => Sys2Proof.Machine.execDispT31 channel s
  | .dispT32 channel => Sys2Proof.Machine.execDispT32 channel s
  | .dispT33 channel => Sys2Proof.Machine.execDispT33 channel s
  | .dispT34 channel => Sys2Proof.Machine.execDispT34 channel s
  | .dispT35 channel => Sys2Proof.Machine.execDispT35 channel s
  | .dispT36 channel => Sys2Proof.Machine.execDispT36 channel s
  | .dispT37 channel => Sys2Proof.Machine.execDispT37 channel s
  | .dispT38 channel => Sys2Proof.Machine.execDispT38 channel s
  | .dispT39 channel => Sys2Proof.Machine.execDispT39 channel s
  | .dispT40 channel => Sys2Proof.Machine.execDispT40 channel s
  | .dispT41 channel => Sys2Proof.Machine.execDispT41 channel s
  | .dispT42 channel => Sys2Proof.Machine.execDispT42 channel s
  | .dispT43 channel => Sys2Proof.Machine.execDispT43 channel s
  | .dispT44 channel => Sys2Proof.Machine.execDispT44 channel s
  | .dispT45 channel => Sys2Proof.Machine.execDispT45 channel s
  | .dispT46 channel => Sys2Proof.Machine.execDispT46 channel s
  | .dispT47 channel => Sys2Proof.Machine.execDispT47 channel s
  | .dispT48 channel => Sys2Proof.Machine.execDispT48 channel s
  | .dispT49 channel => Sys2Proof.Machine.execDispT49 channel s
  | .dispT50 channel => Sys2Proof.Machine.execDispT50 channel s
  | .dispT51 channel => Sys2Proof.Machine.execDispT51 channel s
  | .dispT52 channel => Sys2Proof.Machine.execDispT52 channel s
  | .dispT53 channel => Sys2Proof.Machine.execDispT53 channel s
  | .dispT54 channel => Sys2Proof.Machine.execDispT54 channel s
  | .dispT55 channel => Sys2Proof.Machine.execDispT55 channel s
  | .dispT56 channel => Sys2Proof.Machine.execDispT56 channel s
  | .dispT57 channel => Sys2Proof.Machine.execDispT57 channel s
  | .dispT58 channel => Sys2Proof.Machine.execDispT58 channel s
  | .dispT59 channel => Sys2Proof.Machine.execDispT59 channel s
  | .dispT60 channel => Sys2Proof.Machine.execDispT60 channel s
  | .dispT61 channel => Sys2Proof.Machine.execDispT61 channel s
  | .dispT62 channel => Sys2Proof.Machine.execDispT62 channel s
  | .dispT63 channel => Sys2Proof.Machine.execDispT63 channel s

end Sys2Proof.Machine
end

