-- ==== Sys2Proof/Machine/Step.lean ====
section
/-! DEFINITION. One step of the block: the oldest operation presented is decoded and run to its end (spec/20_memory.md
R57, R61). With nothing presented the block does nothing (spec/60_exceptions.md R226). -/

namespace Sys2Proof.Machine

/-- Present something to the block: it is run after everything presented before it (20 R61). -/
def State.present (s : State) (x : Issue) : State := { s with input := s.input ++ [x] }

/-- One step. -/
def step (s : State) : Host.Outcome State Fault Refusal :=
  match s.input with
  | [] => .next s
  | x :: rest =>
    match decode x with
    | .error e => .refused (.undecodable e)
    | .ok i => exec i { s with input := rest }

/-- Place an opcode-table word where the next step takes its instruction from: at the head of `input` (log 26). -/
def State.withFetchWord (s : State) (nbits w : Nat) : State :=
  match issueOfTableWord nbits w with
  | none => s
  | some x => { s with input := x :: s.input }

end Sys2Proof.Machine
end

