-- ==== Sys2Proof/Safety.lean ====
section
/-! DEFINITION. The terms the claims are stated in: what a parse call writes, the outcome of step 7 as the rules of
spec/44_decode_dispatch.md list it, payload values in the closed form of spec/40_bit_codec.md, and the invariants of
the state. -/

namespace Sys2Proof.Machine

/-! ### Results -/

/-- The state after a parse call: `RESULT` holds the given record with some message (10 R30, R33), the slot and the
context map are as given, the codec's answer is cleared, one message was drawn, and everything else is as before. -/
def Wrote (s t : State) (c : Ctx) (text : Bytes) (fill : Nat) (v : Validity) (kind : Option Kind)
    (exc : Option Cause) (ty : Option Sym) (d : Option Decoder) (ch : Bytes) : Prop :=
  ∃ m : Bytes,
    t =
      { s with
        ctx := c
        text := text
        fill := fill
        result := some ⟨v, kind, exc, m, ty, d, ch⟩
        ret := .none
        draws := s.draws + 1 }

/-- The load of 40 R101 fails: the fill reaches the length, but not for the empty text with fill 0. -/
abbrev Malformed (text : Bytes) (fill : Nat) : Prop := 6 * text.length ≤ fill ∧ ¬(text = [] ∧ fill = 0)

/-- The symbol at index `k`, if byte `k` exists and is legal (20 R51, 30 R80). -/
def symbolAt (text : Bytes) (k : Nat) : Option Sym := (text[k]?).bind dearmour

/-- What the Message Model answers when asked about `(text, f)` (41 R130). -/
def verdict (s : State) (d : Decoder) (ty : Sym) (text : Bytes) (f : Nat) (ch : Bytes) : Verdict :=
  messageModel s.params s.mm { decoder := d, aisType := ty, text := text, fill := f, channel := ch }

/-- Step 7 on `(text, f, ch)` takes `s` to `t`: 44 R191 (load failure), R192 (type-read failure), R194 (unsupported
type), R195 (too short), R196 (valid), R197 (failure inside the Message Model). -/
def Step7 (text : Bytes) (f : Nat) (ch : Bytes) (s t : State) : Prop :=
  if Malformed text f then Wrote s t s.ctx [] 0 .invalid (some .payload) (some .malformedPayload) none none ch
  else if 6 * text.length - f < 6 then
    Wrote s t s.ctx text f .invalid (some .payload) (some .rangeError) none none ch
  else
    match symbolAt text 0 with
    | none => Wrote s t s.ctx text f .invalid (some .payload) (some .invalidSymbol) none none ch
    | some ty =>
      match dispatchTable ty with
      | none => Wrote s t s.ctx text f .unsupported (some .unsupportedType) none (some ty) none ch
      | some d =>
        match verdict s d ty text f ch with
        | .tooShort => Wrote s t s.ctx text f .invalid (some .payload) (some .tooShort) (some ty) (some d) ch
        | .external _ => Wrote s t s.ctx text f .invalid (some .payload) (some .external) (some ty) (some d) ch
        | .ok => Wrote s t s.ctx text f .valid none none (some ty) (some d) ch

/-- No capacity stands in the way (00 section 4: unbounded by default). -/
abbrev Unbounded (s : State) : Prop :=
  s.params.sentMax = none ∧ s.params.textMax = none ∧ s.params.ctxCap = none

/-! ### Payload values in closed form -/

/-- The `l` payload bits from `a` as a number, first bit most significant (40 R107). -/
def bitValue (text : Bytes) (a l : Nat) : Nat :=
  ((List.range l).map fun j => (payloadBit text (a + j)).toNat * 2 ^ (l - 1 - j)).sum

/-- Byte `i` of a buffer read of `l` bits at `a` (40 R116). -/
def bufferByte (text : Bytes) (a l i : Nat) : Nat :=
  ((List.range 8).map fun b =>
    (if 8 * i + b < l then (payloadBit text (a + 8 * i + b)).toNat else 0) * 2 ^ (7 - b)).sum

/-- Every symbol that a read of `l >= 1` bits at `a` fetches is legal (20 R56). -/
abbrev SpanLegal (text : Bytes) (a l : Nat) : Prop :=
  ∀ k, k < (a + l - 1) / 6 + 1 → a / 6 ≤ k → (symbolAt text k).isSome = true

/-- `k` is the first illegal byte, in fetch order, of a read of `l >= 1` bits at `a` (40 R104). -/
abbrev FirstIllegal (text : Bytes) (a l k : Nat) : Prop :=
  a / 6 ≤ k ∧ k < (a + l - 1) / 6 + 1 ∧ symbolAt text k = none ∧
    ∀ j, j < k → a / 6 ≤ j → (symbolAt text j).isSome = true

/-- Two texts that agree on every character a read of `l >= 1` bits at `a` fetches (40 R119). -/
abbrev SameSpan (text text' : Bytes) (a l : Nat) : Prop :=
  ∀ k, k < (a + l - 1) / 6 + 1 → a / 6 ≤ k → text[k]? = text'[k]?

/-! ### Reserved commands -/

/-- 30 R94 with the formats of R90 to R92: a reserved operation code, the option pattern 01, or a non-zero bit where
the format says 0. -/
abbrev ReservedCommand (w : CmdWord) : Prop :=
  let op := (w.extractLsb' 28 4).toNat
  op ∈ [3, 4, 5, 6, 7, 14, 15] ∨
  (op = 0 ∧ w.extractLsb' 1 27 ≠ 0) ∨
  (op = 1 ∧ (w.extractLsb' 2 26 ≠ 0 ∨ w.extractLsb' 0 2 = 1)) ∨
  ((op = 2 ∨ op = 9) ∧ w.extractLsb' 0 28 ≠ 0) ∨
  (op = 8 ∧ w.extractLsb' 16 12 ≠ 0)

/-! ### Invariants -/

/-- The slot invariant (10 R29). -/
abbrev SlotOk (s : State) : Prop := (s.text = [] ∧ s.fill = 0) ∨ s.fill < 6 * s.text.length

/-- Every live context awaits fragment 2 or a later one (10 R28). -/
abbrev NextOk (s : State) : Prop := ∀ p ∈ s.ctx, 2 ≤ p.2.next

/-- The combinations of `RESULT` that occur (10 R32). -/
def Report.legal (r : Report) : Prop :=
  match r.validity, r.kind, r.exc, r.aisType, r.decoder with
  | .valid, none, none, some t, some d => dispatchTable t = some d
  | .incomplete, none, none, none, none => True
  | .invalid, some .structural, none, none, none => True
  | .unsupported, some .structural, none, none, none => True
  | .invalid, some .checksum, none, none, none => True
  | .invalid, some .sequence, none, none, none => True
  | .unsupported, some .sequence, none, none, none => True
  | .invalid, some .payload, some c, none, none => c = .malformedPayload ∨ c = .rangeError ∨ c = .invalidSymbol
  | .invalid, some .payload, some c, some t, some d => (c = .tooShort ∨ c = .external) ∧ dispatchTable t = some d
  | .unsupported, some .unsupportedType, none, some t, none => dispatchTable t = none
  | _, _, _, _, _ => False

/-- `RESULT` is none or one of the combinations of 10 R32. -/
def ReportOk (s : State) : Prop := ∀ r, s.result = some r → r.legal

/-- The state invariant: the context map in canonical form (log 10), every context awaiting fragment 2 or later
(10 R28), the slot invariant (10 R29). -/
structure Inv (s : State) : Prop where
  canonical : Memory.wf s
  next : NextOk s
  slot : SlotOk s

/-! ### Comparing without the message

The text of a message is free (10 R33), and the spec gives no two messages the same text (91 N17): what compares two
runs compares them without it. -/

/-- A report without its message. -/
def Report.withoutMsg (r : Report) : Report := { r with msg := [] }

/-- A state without the message in `RESULT`. -/
def State.withoutMsg (s : State) : State := { s with result := s.result.map Report.withoutMsg }

/-- An outcome without the message in `RESULT`. -/
def exceptMsg : Outcome → Outcome
  | .next t => .next t.withoutMsg
  | .fault f => .fault f
  | .refused r => .refused r

/-! ### States that differ only in what was reported -/

/-- The same state but for `RESULT` and the codec's answer. -/
def SameButReported (s s' : State) : Prop := s' = { s with result := s'.result, ret := s'.ret }

/-- Two outcomes that agree but for `RESULT` and the codec's answer. -/
def OutcomesAgree : Outcome → Outcome → Prop
  | .next t, .next t' => SameButReported t t'
  | .refused r, .refused r' => r = r'
  | .fault _, _ => False
  | _, _ => False

/-- The six codec operations. -/
def isCodec : Instr → Bool
  | .bcLoad _ _ => true
  | .bcLen => true
  | .bcRdu _ _ => true
  | .bcRdi _ _ => true
  | .bcRds _ _ => true
  | .bcRdb _ _ => true
  | _ => false

/-- The sequence identifier an instruction names: field 4 of a parse's field list (42 R158), the identifier of a
sentence; none for everything else. -/
def keyOf : Instr → Option Bytes
  | .spParse _ S => (split S)[3]?
  | .spParsef L => L[3]?
  | .sentSingle x => some x.seqId
  | .sentFirst x => some x.seqId
  | .sentMiddle x => some x.seqId
  | .sentFinal x => some x.seqId
  | .sentBadseq x => some x.seqId
  | _ => none

end Sys2Proof.Machine
end

