-- ==== Sys2Proof/Certificates/Slice0/Obligations.lean ====
section
/-! DEFINITION. The statements for the provers. Each docstring names the rule of spec/ it formalises. -/

open Sys2Proof Sys2Proof.Machine

/-! ### Encodings -/

/-- Decoding an encoded well-formed instruction gives it back, for every row of the opcode table (30 R70 to R92). A
sentence is encoded with numbers in canonical decimal (log 22). -/
def Obligations.DecodeOfEncode : Prop :=
  ∀ i : Instr, i.wf = true → decode (encode i) = .ok i

/-- Whatever is decoded is well-formed (30 R71, R78, R90). -/
def Obligations.DecodedIsWellFormed : Prop :=
  ∀ (x : Issue) (i : Instr), decode x = .ok i → i.wf = true

/-- Every command word, tag and type discriminator has at most one meaning: encoding what it decodes into gives it
back, bit for bit and with its bulk operand (30 R73, R85, R90 to R92). -/
def Obligations.EncodeOfDecodedWord : Prop :=
  (∀ (w : CmdWord) (b : Bulk) (i : Instr), decode (.command w b) = .ok i → encode i = .command w b) ∧
  (∀ (w : TagWord) (i : Instr), decode (.tag w) = .ok i → encode i = .tag w) ∧
  (∀ (t : Sym) (ch : Bytes) (i : Instr), decode (.typeField t ch) = .ok i → encode i = .typeField t ch)

/-- Words the spec writes out decode to the instructions it says (95 section 5, 30 R91, R92). -/
def Obligations.SpecWordsDecode : Prop :=
  decode (.command 0x00000001 .none) = .ok (.spInit true) ∧
  (∀ S, decode (.command 0x10000000 (.text S)) = .ok (.spParse none S)) ∧
  (∀ S, decode (.command 0x10000003 (.text S)) = .ok (.spParse (some true) S)) ∧
  (∀ S, decode (.command 0x10000002 (.text S)) = .ok (.spParse (some false) S)) ∧
  (∀ L, decode (.command 0x20000000 (.fields L)) = .ok (.spParsef L)) ∧
  (∀ t, decode (.command 0x80000024 (.text t)) = .ok (.bcLoad 36 t)) ∧
  decode (.command 0x90000000 .none) = .ok .bcLen ∧
  decode (.command 0xA01E0008 .none) = .ok (.bcRdu 8 30) ∧
  decode (.command 0xB01C003D .none) = .ok (.bcRdi 61 28) ∧
  decode (.command 0xC0780000 .none) = .ok (.bcRds 0 120) ∧
  decode (.command 0xD0200008 .none) = .ok (.bcRdb 8 32)

/-- Reserved commands (30 R94): a reserved operation code, the option pattern 01 or a non-zero bit where the format says
0 is refused, whatever stands beside it and in whatever state; the seven reserved rows refuse on every path. -/
def Obligations.ReservedCommandsAreRefused : Prop :=
  (∀ (s : State) (w : CmdWord) (b : Bulk) (rest : List Issue),
    s.input = .command w b :: rest → ReservedCommand w → ∃ r, step s = .refused r) ∧
  (∀ (r : BitVec 28) (b : Bulk) (s : State),
    exec (.cmdReserved3 r b) s = .refused (.reservedCommand 0x3) ∧
    exec (.cmdReserved4 r b) s = .refused (.reservedCommand 0x4) ∧
    exec (.cmdReserved5 r b) s = .refused (.reservedCommand 0x5) ∧
    exec (.cmdReserved6 r b) s = .refused (.reservedCommand 0x6) ∧
    exec (.cmdReserved7 r b) s = .refused (.reservedCommand 0x7) ∧
    exec (.cmdReservedE r b) s = .refused (.reservedCommand 0xE) ∧
    exec (.cmdReservedF r b) s = .refused (.reservedCommand 0xF))

/-- The tag (30 R73): exactly two byte strings are accepted; read as 48-bit big-endian numbers they are exactly the
words the mask and match accept; every later step treats them alike, the free message apart (10 R33); the tag row completes and writes nothing, which
is the model's reading (log 13). -/
def Obligations.TagTest : Prop :=
  (∀ f : Bytes, (tagKind f).isSome = true ↔
    f = [0x21, 0x41, 0x49, 0x56, 0x44, 0x4D] ∨ f = [0x21, 0x41, 0x49, 0x56, 0x44, 0x4F]) ∧
  (∀ f : Bytes, f.length = 6 →
    ((tagKind f).isSome = true ↔ tagWord f &&& 0xFFFFFFFFFFFD = 0x21414956444D)) ∧
  (∀ w : TagWord, w &&& 0xFFFFFFFFFFFD = 0x21414956444D ↔
    ∃ own : Bool, decode (.tag w) = .ok (.tagAivdmAivdo own) ∧
      w = if own then 0x21414956444F else 0x21414956444D) ∧
  (∀ (ok : Bool) (r : List Bytes) (s : State), 
    exceptMsg (parseFields ok (tagVdo :: r) s) = exceptMsg (parseFields ok (tagVdm :: r) s)) ∧
  (∀ (own : Bool) (s : State), s.initialised = true → exec (.tagAivdmAivdo own) s = .next s)

/-- The five classes (30 R78): each has its condition, and every pair of naturals is in exactly one. -/
def Obligations.SentenceClasses : Prop :=
  ∀ c i : Nat,
    (classOf c i = .single ↔ c = 1) ∧
    (classOf c i = .first ↔ 1 < c ∧ i = 1) ∧
    (classOf c i = .middle ↔ 1 < c ∧ 1 < i ∧ i < c) ∧
    (classOf c i = .final ↔ 1 < c ∧ i = c) ∧
    (classOf c i = .badseq ↔ c = 0 ∨ 1 < c ∧ (i = 0 ∨ c < i))

/-- The armour code in both directions (30 R80, R81), which bytes are illegal, and the six-bit alphabet (R82). -/
def Obligations.ArmourCodeAndAlphabet : Prop :=
  (∀ (b : Byte) (v : Sym), dearmour b = some v ↔
    (48 ≤ b.toNat ∧ b.toNat ≤ 87 ∧ v.toNat = b.toNat - 48) ∨
    (96 ≤ b.toNat ∧ b.toNat ≤ 119 ∧ v.toNat = b.toNat - 56)) ∧
  (∀ b : Byte, dearmour b = none ↔ b.toNat ≤ 47 ∨ (88 ≤ b.toNat ∧ b.toNat ≤ 95) ∨ 120 ≤ b.toNat) ∧
  (∀ v : Sym, (v.toNat ≤ 31 → (alpha v).toNat = v.toNat + 64) ∧ (32 ≤ v.toNat → (alpha v).toNat = v.toNat))

/-- Splitting (30 R71): the pieces are what stands between the commas, a sentence with `m - 1` commas has `m` of
them, and only seven make a sentence. -/
def Obligations.SplitAtCommas : Prop :=
  (∀ S : Bytes, joinFields (split S) = S ∧ (split S).length = S.count 0x2C + 1 ∧ ∀ f ∈ split S, (0x2C : Byte) ∉ f) ∧
  (∀ L : List Bytes, L ≠ [] → (∀ f ∈ L, (0x2C : Byte) ∉ f) → split (joinFields L) = L) ∧
  (∀ (S : Bytes) (i : Instr), decode (.sentence S) = .ok i → (split S).length = 7)

/-- Decimal conversion (30 R74): it fails exactly on the empty text and on a byte that is no digit; a digit alone has
its value, a digit appended multiplies by ten and adds, so leading zeros change nothing and there is no bound. -/
def Obligations.DecimalConversion : Prop :=
  (∀ s : Bytes, dec s = none ↔ s = [] ∨ ∃ b ∈ s, b.toNat < 48 ∨ 57 < b.toNat) ∧
  (∀ b : Byte, 48 ≤ b.toNat → b.toNat ≤ 57 → dec [b] = some (b.toNat - 48)) ∧
  (∀ (s : Bytes) (n : Nat) (b : Byte), dec s = some n → 48 ≤ b.toNat → b.toNat ≤ 57 →
    dec (s ++ [b]) = some (10 * n + (b.toNat - 48))) ∧
  (∀ (s : Bytes) (n : Nat), dec s = some n → dec (0x30 :: s) = some n)

/-- The checksum (30 R76): with `pre` the bytes before the first `*` and `post` those after it, it matches exactly
when `post` is the two upper-case hexadecimal digits of the exclusive OR of `pre` without its first byte; without a
`*` it does not match. -/
def Obligations.ChecksumRule : Prop :=
  (∀ pre post : Bytes, (0x2A : Byte) ∉ pre →
    let x := ((pre.drop 1).foldl (fun a b => a ^^^ b) (0 : Byte)).toNat
    let H : List Byte :=
      [0x30, 0x31, 0x32, 0x33, 0x34, 0x35, 0x36, 0x37, 0x38, 0x39, 0x41, 0x42, 0x43, 0x44, 0x45, 0x46]
    (checksumMatches (pre ++ 0x2A :: post) = true ↔ post = [H.getD (x / 16) 0, H.getD (x % 16) 0])) ∧
  (∀ S : Bytes, (0x2A : Byte) ∉ S → checksumMatches S = false)

/-! ### The Bit Codec -/

/-- What every reader fetches (40 R104, R107; 20 R52, R56): with every symbol of the span legal, the `l` payload bits
from `a` in order, payload bit `a` being bit `5 - (a mod 6)` of symbol `a div 6`; otherwise `InvalidSymbol` of the
first illegal byte of the text in fetch order. Past the end of the text `Sym` has no rule (R104 requires an index inside
it), and nothing is said there. -/
def Obligations.ReadBitsArePayloadBits : Prop :=
  (∀ (text : Bytes) (a l : Nat), 1 ≤ l →
    (SpanLegal text a l → readBits text a l = .ok ((List.range l).map fun j => payloadBit text (a + j))) ∧
    (∀ k, FirstIllegal text a l k → k < text.length → readBits text a l = .error (.invalidSymbol k))) ∧
  (∀ (text : Bytes) (a : Nat) (b : Byte) (v : Sym), text[a / 6]? = some b → dearmour b = some v →
    (payloadBit text a).toNat = (v.toNat >>> (5 - a % 6)) &&& 1)

/-- `BC.RDU` (40 R105 to R107): its command words, the checks in their order, the value, and that only the answer
changes (`ret`, log 5). -/
def Obligations.ReadUnsigned : Prop :=
  (∀ (l : BitVec 12) (s : BitVec 16), decode (.command (cmdWord 0xA l s) .none) = .ok (.bcRdu s.toNat l.toNat)) ∧
  ∀ (st : State) (s l : Nat), st.initialised = true →
    (l = 0 → exec (.bcRdu s l) st = .next { st with ret := .ok (.nat 0) }) ∧
    (31 < l → exec (.bcRdu s l) st = .next { st with ret := .raised .rangeError }) ∧
    (1 ≤ l → l ≤ 31 → 6 * st.text.length - st.fill < s + l →
      exec (.bcRdu s l) st = .next { st with ret := .raised .rangeError }) ∧
    (∀ k, 1 ≤ l → l ≤ 31 → s + l ≤ 6 * st.text.length - st.fill → FirstIllegal st.text s l k →
      exec (.bcRdu s l) st = .next { st with ret := .raised (.invalidSymbol k) }) ∧
    (1 ≤ l → l ≤ 31 → s + l ≤ 6 * st.text.length - st.fill → SpanLegal st.text s l →
      exec (.bcRdu s l) st = .next { st with ret := .ok (.nat (bitValue st.text s l)) })

/-- `BC.RDI` (40 R110): its command words, the checks of `BC.RDU`; the value is `r`, or `r - 2^l` when the top bit of the field is set. -/
def Obligations.ReadSigned : Prop :=
  (∀ (l : BitVec 12) (s : BitVec 16), decode (.command (cmdWord 0xB l s) .none) = .ok (.bcRdi s.toNat l.toNat)) ∧
  ∀ (st : State) (s l : Nat), st.initialised = true →
    (l = 0 → exec (.bcRdi s l) st = .next { st with ret := .ok (.int 0) }) ∧
    (31 < l → exec (.bcRdi s l) st = .next { st with ret := .raised .rangeError }) ∧
    (1 ≤ l → l ≤ 31 → 6 * st.text.length - st.fill < s + l →
      exec (.bcRdi s l) st = .next { st with ret := .raised .rangeError }) ∧
    (∀ k, 1 ≤ l → l ≤ 31 → s + l ≤ 6 * st.text.length - st.fill → FirstIllegal st.text s l k →
      exec (.bcRdi s l) st = .next { st with ret := .raised (.invalidSymbol k) }) ∧
    (1 ≤ l → l ≤ 31 → s + l ≤ 6 * st.text.length - st.fill → SpanLegal st.text s l →
      exec (.bcRdi s l) st = .next { st with ret := .ok (.int
        (if payloadBit st.text s = true then (bitValue st.text s l : Int) - 2 ^ l
         else (bitValue st.text s l : Int))) })

/-- The two integer readers (40 R111): the same exceptions on the same inputs; the unsigned value is the signed one
modulo `2^l`, and equal to it when the top bit of the field is 0. -/
def Obligations.IntegerReadersAgree : Prop :=
  ∀ (text : Bytes) (fill s l : Nat),
    (∀ e, rdu text fill s l = .error e ↔ rdi text fill s l = .error e) ∧
    (∀ r z, rdu text fill s l = .ok r → rdi text fill s l = .ok z →
      (r : Int) = z % 2 ^ l ∧ (r < 2 ^ (l - 1) → z = r))

/-- Bounds of the codec's values (40 R114, R118): nothing wraps, and a string read holds only bytes 0x20 to 0x5F. -/
def Obligations.ReadBounds : Prop :=
  ∀ (text : Bytes) (fill s l : Nat),
    (∀ r, rdu text fill s l = .ok r → r < 2 ^ l ∧ l ≤ 31) ∧
    (∀ z, 1 ≤ l → rdi text fill s l = .ok z → -(2 ^ (l - 1)) ≤ z ∧ z < 2 ^ (l - 1)) ∧
    (∀ r, rds text fill s l = .ok r → r.length = l / 6 ∧ ∀ b ∈ r, 0x20 ≤ b.toNat ∧ b.toNat ≤ 0x5F)

/-- Splitting and joining integer reads (40 R119, 20 R54). -/
def Obligations.ReadsSplitAndJoin : Prop :=
  ∀ (text : Bytes) (fill s l₁ l₂ r₁ r₂ : Nat), l₁ + l₂ ≤ 31 →
    rdu text fill s l₁ = .ok r₁ → rdu text fill (s + l₁) l₂ = .ok r₂ →
      rdu text fill s (l₁ + l₂) = .ok (r₁ * 2 ^ l₂ + r₂)

/-- The shifting algorithm (40 R108) answers what the closed form (R107) does, exceptions included, and its accumulator
gathers at most `l + 5` bits, so at most 36. -/
def Obligations.ShiftingAlgorithmRefines : Prop :=
  (∀ (text : Bytes) (fill s l : Nat), 1 ≤ l → l ≤ 31 → s + l ≤ bitLen text fill →
    rduByShifting text s l = rdu text fill s l) ∧
  (∀ (text : Bytes) (s l acc got : Nat) (v : Sym), 1 ≤ l → l ≤ 31 →
    shiftLoop text l l (v.toNat &&& (2 ^ (6 - s % 6) - 1)) (6 - s % 6) (s / 6 + 1) = .ok (acc, got) →
      got ≤ l + 5 ∧ acc < 2 ^ got ∧ acc < 2 ^ 36)

/-- `BC.RDS` (40 R112, R113): its command words, the checks in their order, the string, and that only the answer changes. -/
def Obligations.ReadString : Prop :=
  (∀ (l : BitVec 12) (s : BitVec 16), decode (.command (cmdWord 0xC l s) .none) = .ok (.bcRds s.toNat l.toNat)) ∧
  ∀ (st : State) (s l : Nat), st.initialised = true →
    ((l = 0 ∨ l % 6 ≠ 0) → exec (.bcRds s l) st = .next { st with ret := .raised .rangeError }) ∧
    (1 ≤ l → l % 6 = 0 → 6 * st.text.length - st.fill < s + l →
      exec (.bcRds s l) st = .next { st with ret := .raised .rangeError }) ∧
    (∀ k, 1 ≤ l → l % 6 = 0 → s + l ≤ 6 * st.text.length - st.fill → FirstIllegal st.text s l k →
      exec (.bcRds s l) st = .next { st with ret := .raised (.invalidSymbol k) }) ∧
    (1 ≤ l → l % 6 = 0 → s + l ≤ 6 * st.text.length - st.fill → SpanLegal st.text s l →
      exec (.bcRds s l) st = .next { st with ret := .ok (.string
        ((List.range (l / 6)).map fun j => alpha (BitVec.ofNat 6 (bitValue st.text (s + 6 * j) 6)))) })

/-- `BC.RDB` (40 R115, R116): its command words, the checks in their order, the buffer, and that only the answer changes. -/
def Obligations.ReadBuffer : Prop :=
  (∀ (l : BitVec 12) (s : BitVec 16), decode (.command (cmdWord 0xD l s) .none) = .ok (.bcRdb s.toNat l.toNat)) ∧
  ∀ (st : State) (s l : Nat), st.initialised = true →
    (6 * st.text.length - st.fill < s + l →
      exec (.bcRdb s l) st = .next { st with ret := .raised .rangeError }) ∧
    (l = 0 → s ≤ 6 * st.text.length - st.fill →
      exec (.bcRdb s l) st = .next { st with ret := .ok (.buffer []) }) ∧
    (∀ k, 1 ≤ l → s + l ≤ 6 * st.text.length - st.fill → FirstIllegal st.text s l k →
      exec (.bcRdb s l) st = .next { st with ret := .raised (.invalidSymbol k) }) ∧
    (1 ≤ l → s + l ≤ 6 * st.text.length - st.fill → SpanLegal st.text s l →
      exec (.bcRdb s l) st = .next { st with ret := .ok (.buffer
        ((List.range ((l + 7) / 8)).map fun i => BitVec.ofNat 8 (bufferByte st.text s l i))) })

/-- A read depends on the text only through the characters it fetches, and on the fill only through the span check
(40 R119; 20 R53: a byte in the fill region is never observed). -/
def Obligations.ReadsSeeOnlyTheirSpan : Prop :=
  ∀ (text text' : Bytes) (fill fill' s l : Nat), 1 ≤ l → SameSpan text text' s l →
    s + l ≤ bitLen text fill → s + l ≤ bitLen text' fill' →
      rdu text fill s l = rdu text' fill' s l ∧ rdi text fill s l = rdi text' fill' s l ∧
      rds text fill s l = rds text' fill' s l ∧ rdb text fill s l = rdb text' fill' s l

/-- `BC.LOAD` (40 R101): its command words, the zero-length codec, the malformed load that keeps the slot, the load that replaces it
whole without looking at the bytes. -/
def Obligations.LoadPayload : Prop :=
  (∀ (fill : BitVec 16) (text : Bytes), decode (.command (cmdWord 0x8 0 fill) (.text text)) =
    .ok (.bcLoad fill.toNat text)) ∧
  ∀ (st : State) (fill : Nat) (text : Bytes), st.initialised = true →
    (text = [] → fill = 0 →
      exec (.bcLoad fill text) st = .next { st with text := [], fill := 0, ret := .ok .done }) ∧
    (6 * text.length ≤ fill → ¬(text = [] ∧ fill = 0) →
      exec (.bcLoad fill text) st = .next { st with ret := .raised .malformedPayload }) ∧
    (fill < 6 * text.length → fits st.params.textMax text.length = true →
      exec (.bcLoad fill text) st = .next { st with text := text, fill := fill, ret := .ok .done })

/-- `BC.LEN` (40 R102): its command word, and the length answered (`ret`, log 5). Under the slot invariant (10 R29) no
subtraction is cut off: the length and the fill make up 6 times the length of the text, and it is 0 for the zero-length
codec alone. -/
def Obligations.BitLength : Prop :=
  decode (.command (cmdWord 0x9 0 0) .none) = .ok .bcLen ∧
  ∀ st : State, st.initialised = true →
    exec .bcLen st = .next { st with ret := .ok (.nat (6 * st.text.length - st.fill)) } ∧
    (SlotOk st → ∃ n, exec .bcLen st = .next { st with ret := .ok (.nat n) } ∧ n + st.fill = 6 * st.text.length ∧
      (st.text = [] → n = 0) ∧ (st.text ≠ [] → 1 ≤ n))

/-- A codec exception is precise (40 R100, 60 R211): whatever raises has changed nothing but the answer. -/
def Obligations.RaisingChangesNothing : Prop :=
  ∀ (i : Instr) (s t : State) (e : CodecExc), isCodec i = true → exec i s = .next t → t.ret = .raised e →
    t = { s with ret := .raised e }

/-! ### Dispatch and step 7 -/

/-- The types without a decoder (44 R194), row by row, on the slot as it is loaded and with the channel given (log 14):
UNSUPPORTED with the type, the slot kept, nothing else. -/
def Obligations.UnsupportedTypes : Prop :=
  ∀ row ∈ ([
      (0, .dispT0), (6, .dispT6), (7, .dispT7), (9, .dispT9), (10, .dispT10), (11, .dispT11),
      (12, .dispT12), (13, .dispT13), (15, .dispT15), (16, .dispT16), (17, .dispT17), (20, .dispT20),
      (22, .dispT22), (23, .dispT23), (25, .dispT25), (26, .dispT26), (28, .dispT28), (29, .dispT29),
      (30, .dispT30), (31, .dispT31), (32, .dispT32), (33, .dispT33), (34, .dispT34), (35, .dispT35),
      (36, .dispT36), (37, .dispT37), (38, .dispT38), (39, .dispT39), (40, .dispT40), (41, .dispT41),
      (42, .dispT42), (43, .dispT43), (44, .dispT44), (45, .dispT45), (46, .dispT46), (47, .dispT47),
      (48, .dispT48), (49, .dispT49), (50, .dispT50), (51, .dispT51), (52, .dispT52), (53, .dispT53),
      (54, .dispT54), (55, .dispT55), (56, .dispT56), (57, .dispT57), (58, .dispT58), (59, .dispT59),
      (60, .dispT60), (61, .dispT61), (62, .dispT62), (63, .dispT63)] : List (Sym × (Bytes → Instr))),
    ∀ (ch : Bytes) (s : State), s.initialised = true →
      ∃ t, exec (row.2 ch) s = .next t ∧
        Wrote s t s.ctx s.text s.fill .unsupported (some .unsupportedType) none (some row.1) none ch

/-- The types with a decoder (44 R193, R195, R196, R197), row by row, on the slot as it is loaded (log 14): the result by the Message Model's answer about
the slot, the slot kept, nothing else. -/
def Obligations.SupportedTypes : Prop :=
  ∀ row ∈ ([
      (1, .dec1to3, .dispT1),
      (2, .dec1to3, .dispT2),
      (3, .dec1to3, .dispT3),
      (4, .dec4, .dispT4),
      (5, .dec5, .dispT5),
      (8, .dec8, .dispT8),
      (14, .dec14, .dispT14),
      (18, .dec18, .dispT18),
      (19, .dec19, .dispT19),
      (21, .dec21, .dispT21),
      (24, .dec24, .dispT24),
      (27, .dec27, .dispT27)] : List (Sym × Decoder × (Bytes → Instr))),
    ∀ (ch : Bytes) (s : State), s.initialised = true →
      ∃ t, exec (row.2.2 ch) s = .next t ∧
        match verdict s row.2.1 row.1 s.text s.fill ch with
        | .tooShort =>
          Wrote s t s.ctx s.text s.fill .invalid (some .payload) (some .tooShort) (some row.1) (some row.2.1) ch
        | .external _ =>
          Wrote s t s.ctx s.text s.fill .invalid (some .payload) (some .external) (some row.1) (some row.2.1) ch
        | .ok => Wrote s t s.ctx s.text s.fill .valid none none (some row.1) (some row.2.1) ch

/-- Dispatch looks at nothing but `t` (44 R193): step 7 runs the row of the type, and that row is the one the type
discriminator decodes into. -/
def Obligations.DispatchRunsTheRow : Prop :=
  ∀ (t : Sym) (ch : Bytes) (s : State),
    decode (.typeField t ch) = .ok (dispInstr t ch) ∧ runType t ch s = exec (dispInstr t ch) s

/-- The Message Model's constraint (41 R132): `tooShort` exactly below the minimum, for every decoder whose minimum the
table gives; at or above it the oracle's failure when it answers one and `ok` otherwise (41 R130, 44 R197; that an
oracle's own `tooShort` counts as `ok` there is log 7); its own answer for the decoders without a minimum. The defaults
are the source's minimum lengths, four decoders left open (41 R133, log 8). -/
def Obligations.MinimumLengths : Prop :=
  (∀ (s : State) (d : Decoder) (ty : Sym) (text : Bytes) (f : Nat) (ch : Bytes),
    (∀ m, s.params.minBits.lookup d = some m →
      (verdict s d ty text f ch = .tooShort ↔ 6 * text.length - f < m) ∧
      (m ≤ 6 * text.length - f →
        (∀ msg, verdict s d ty text f ch = .external msg ↔
          s.mm.answer { decoder := d, aisType := ty, text := text, fill := f, channel := ch } = .external msg) ∧
        (verdict s d ty text f ch = .ok ↔
          ∀ msg, s.mm.answer { decoder := d, aisType := ty, text := text, fill := f, channel := ch } ≠
            .external msg))) ∧
    (s.params.minBits.lookup d = none →
      verdict s d ty text f ch =
        s.mm.answer { decoder := d, aisType := ty, text := text, fill := f, channel := ch })) ∧
  (∀ d : Decoder, Params.default.minBits.lookup d = match d with
    | .dec1to3 => some 144 | .dec4 => some 167 | .dec5 => some 423 | .dec8 => some 56 | .dec14 => some 40
    | .dec21 => some 271 | .dec18 => none | .dec19 => none | .dec24 => none | .dec27 => none)

/-- Step 7 (44 R190 to R197): on every payload that fits, it ends in exactly the outcome the rules list. -/
def Obligations.DecodeOutcome : Prop :=
  ∀ (s : State) (text : Bytes) (f : Nat) (ch : Bytes), s.initialised = true →
    fits s.params.textMax text.length = true →
      ∃ t, decodePayload text f ch s = .next t ∧ Step7 text f ch s t

/-- What step 7's report depends on, its free message apart (44 R198, 10 R33): the length of the text, the fill, the
first byte, the channel and the Message Model's answer. -/
def Obligations.DecodeDependsOnFirstByte : Prop :=
  ∀ (s t t' : State) (text text' : Bytes) (f : Nat) (ch : Bytes), text.length = text'.length → text[0]? = text'[0]? →
    (∀ d ty, verdict s d ty text f ch = verdict s d ty text' f ch) →
    decodePayload text f ch s = .next t → decodePayload text' f ch s = .next t' →
      t.result.map Report.withoutMsg = t'.result.map Report.withoutMsg

/-! ### The sentence classes -/

/-- `SENT.SINGLE` (43 R171): when it is run; step 7 when the index is 1, otherwise INVALID Sequence; `CTX` untouched either way. -/
def Obligations.SingleSentence : Prop :=
  ∀ (s : State) (x : Fragment), s.initialised = true →
    (x.count = 1 → runClass x s = exec (.sentSingle x) s) ∧
    (x.index ≠ 1 → ∃ t, exec (.sentSingle x) s = .next t ∧
      Wrote s t s.ctx [] 0 .invalid (some .sequence) none none none x.channel) ∧
    (x.index = 1 → fits s.params.textMax x.armoured.length = true → ∃ t, exec (.sentSingle x) s = .next t ∧
      Step7 x.armoured x.fill x.channel s t)

/-- `SENT.FIRST` (43 R172): when it is run, and its three ends. A capacity that stands in the way is left to
`CapacitiesRefuse`. -/
def Obligations.FirstFragment : Prop :=
  ∀ (s : State) (x : Fragment), s.initialised = true →
    (1 < x.count → x.index = 1 → runClass x s = exec (.sentFirst x) s) ∧
    (x.fill ≠ 0 → ∃ t, exec (.sentFirst x) s = .next t ∧
      Wrote s t (ctxDel x.seqId s.ctx) [] 0 .unsupported (some .sequence) none none none x.channel) ∧
    (x.fill = 0 → ctxHas x.seqId s.ctx = true → ∃ t, exec (.sentFirst x) s = .next t ∧
      Wrote s t (ctxDel x.seqId s.ctx) [] 0 .invalid (some .sequence) none none none x.channel) ∧
    (x.fill = 0 → ctxHas x.seqId s.ctx = false → fits s.params.textMax x.armoured.length = true →
      fits s.params.ctxCap (s.ctx.length + 1) = true → ∃ t, exec (.sentFirst x) s = .next t ∧
        Wrote s t (ctxPut x.seqId ⟨2, x.armoured⟩ s.ctx) [] 0 .incomplete none none none none x.channel)

/-- `SENT.MIDDLE` (43 R173): when it is run, and its four ends. -/
def Obligations.MiddleFragment : Prop :=
  ∀ (s : State) (x : Fragment), s.initialised = true →
    (1 < x.index → x.index < x.count → runClass x s = exec (.sentMiddle x) s) ∧
    (x.fill ≠ 0 → ∃ t, exec (.sentMiddle x) s = .next t ∧
      Wrote s t (ctxDel x.seqId s.ctx) [] 0 .unsupported (some .sequence) none none none x.channel) ∧
    (x.fill = 0 → ctxGet x.seqId s.ctx = none → ∃ t, exec (.sentMiddle x) s = .next t ∧
      Wrote s t s.ctx [] 0 .invalid (some .sequence) none none none x.channel) ∧
    (∀ n acc, x.fill = 0 → ctxGet x.seqId s.ctx = some ⟨n, acc⟩ → n ≠ x.index → ∃ t, exec (.sentMiddle x) s = .next t ∧
      Wrote s t (ctxDel x.seqId s.ctx) [] 0 .invalid (some .sequence) none none none x.channel) ∧
    (∀ acc, x.fill = 0 → ctxGet x.seqId s.ctx = some ⟨x.index, acc⟩ →
      fits s.params.textMax (acc ++ x.armoured).length = true →
      fits s.params.ctxCap (ctxPut x.seqId ⟨x.index + 1, acc ++ x.armoured⟩ s.ctx).length = true →
        ∃ t, exec (.sentMiddle x) s = .next t ∧
          Wrote s t (ctxPut x.seqId ⟨x.index + 1, acc ++ x.armoured⟩ s.ctx) [] 0 .incomplete none none none none
            x.channel)

/-- `SENT.FINAL` (43 R174): when it is run; on success the context is removed and step 7 runs on the whole text with this fragment's
fill and channel. -/
def Obligations.FinalFragment : Prop :=
  ∀ (s : State) (x : Fragment), s.initialised = true →
    (1 < x.count → x.index = x.count → runClass x s = exec (.sentFinal x) s) ∧
    (ctxGet x.seqId s.ctx = none → ∃ t, exec (.sentFinal x) s = .next t ∧
      Wrote s t s.ctx [] 0 .invalid (some .sequence) none none none x.channel) ∧
    (∀ n acc, ctxGet x.seqId s.ctx = some ⟨n, acc⟩ → n ≠ x.index → ∃ t, exec (.sentFinal x) s = .next t ∧
      Wrote s t (ctxDel x.seqId s.ctx) [] 0 .invalid (some .sequence) none none none x.channel) ∧
    (∀ acc, ctxGet x.seqId s.ctx = some ⟨x.index, acc⟩ → fits s.params.textMax (acc ++ x.armoured).length = true →
      ∃ t, exec (.sentFinal x) s = .next t ∧
        Step7 (acc ++ x.armoured) x.fill x.channel { s with ctx := ctxDel x.seqId s.ctx } t)

/-- `SENT.BADSEQ` (43 R175): when it is run, and its one end; the fill is not looked at. -/
def Obligations.BadSequenceNumbers : Prop :=
  ∀ (s : State) (x : Fragment), s.initialised = true →
    ((x.count = 0 ∨ 1 < x.count ∧ (x.index = 0 ∨ x.count < x.index)) → runClass x s = exec (.sentBadseq x) s) ∧
    ∃ t, exec (.sentBadseq x) s = .next t ∧
      Wrote s t (ctxDel x.seqId s.ctx) [] 0 .invalid (some .sequence) none none none x.channel

/-- The fragment count and the tag are not compared from one fragment to the next (43 R177): no class looks at them,
nor at the text after the `*`; the free message apart (10 R33), it ends alike. -/
def Obligations.CountAndTagUnchecked : Prop :=
  ∀ (s : State) (x : Fragment) (n : Nat) (own : Bool) (sum : Option Bytes),
    let y : Fragment := { x with count := n, own := own, sumText := sum }
    exceptMsg (exec (.sentSingle y) s) = exceptMsg (exec (.sentSingle x) s) ∧
    exceptMsg (exec (.sentFirst y) s) = exceptMsg (exec (.sentFirst x) s) ∧
    exceptMsg (exec (.sentMiddle y) s) = exceptMsg (exec (.sentMiddle x) s) ∧
    exceptMsg (exec (.sentFinal y) s) = exceptMsg (exec (.sentFinal x) s) ∧
    exceptMsg (exec (.sentBadseq y) s) = exceptMsg (exec (.sentBadseq x) s)

/-! ### The Sentence Parser -/

/-- `SP.INIT` (42 R150): its command words, and the block's reset, in every state, the one before the first `SP.INIT`
too. That `ret` is cleared and that the parameters, the Message Model, `draws` and `input` stay is the model's (log 5,
log 21). -/
def Obligations.InitResets : Prop :=
  ∀ (c : Bool) (s : State),
    decode (.command (cmdWord 0x0 0 (if c then 1 else 0)) .none) = .ok (.spInit c) ∧
    exec (.spInit c) s =
      .next { s with chkDefault := c, ctx := [], text := [], fill := 0, result := none, initialised := true,
                     ret := .none }

/-- Before the first `SP.INIT` every operation but `SP.INIT` is refused (70 R241). -/
def Obligations.RefusedBeforeInit : Prop :=
  ∀ (i : Instr) (s : State), s.initialised = false → (∀ c, i ≠ .spInit c) → ∃ r, exec i s = .refused r

/-- Step 1, the field count (42 R154, R161): not seven fields is INVALID Structural with the empty channel. -/
def Obligations.WrongFieldCount : Prop :=
  ∀ s : State, s.initialised = true →
    (∀ opt S, fits s.params.sentMax S.length = true → (split S).length ≠ 7 → ∃ t, exec (.spParse opt S) s = .next t ∧
      Wrote s t s.ctx [] 0 .invalid (some .structural) none none none []) ∧
    (∀ L, L.length ≠ 7 → ∃ t, exec (.spParsef L) s = .next t ∧
      Wrote s t s.ctx [] 0 .invalid (some .structural) none none none [])

/-- Step 1, the tag (42 R155): another tag is UNSUPPORTED Structural with the channel `F[4]`. -/
def Obligations.UnsupportedTalker : Prop :=
  ∀ (s : State) (tag cnt idx k ch a f7 : Bytes), s.initialised = true → tag ≠ tagVdm → tag ≠ tagVdo →
    (∀ opt S, fits s.params.sentMax S.length = true → split S = [tag, cnt, idx, k, ch, a, f7] →
      ∃ t, exec (.spParse opt S) s = .next t ∧
        Wrote s t s.ctx [] 0 .unsupported (some .structural) none none none ch) ∧
    (∃ t, exec (.spParsef [tag, cnt, idx, k, ch, a, f7]) s = .next t ∧
      Wrote s t s.ctx [] 0 .unsupported (some .structural) none none none ch)

/-- Step 2 (42 R156, R157): with the checksum enabled by the call's option, or by `CHK_DEFAULT` when the call has
none, a mismatch is INVALID Checksum whatever the other fields hold. -/
def Obligations.ChecksumMismatch : Prop :=
  ∀ (s : State) (opt : Option Bool) (S tag cnt idx k ch a f7 : Bytes), s.initialised = true →
    fits s.params.sentMax S.length = true → split S = [tag, cnt, idx, k, ch, a, f7] → (tag = tagVdm ∨ tag = tagVdo) →
    (opt = some true ∨ (opt = none ∧ s.chkDefault = true)) → checksumMatches S = false →
      ∃ t, exec (.spParse opt S) s = .next t ∧
        Wrote s t s.ctx [] 0 .invalid (some .checksum) none none none ch

/-- With the checksum off, or matching, `SP.PARSE` is `SP.PARSEF` on the split of the sentence (42 R156, R162), the free
message apart (10 R33). -/
def Obligations.ParseIsParseFields : Prop :=
  ∀ (s : State) (opt : Option Bool) (S : Bytes), fits s.params.sentMax S.length = true →
    (opt = some false ∨ (opt = none ∧ s.chkDefault = false) ∨ checksumMatches S = true) →
      exceptMsg (exec (.spParse opt S) s) = exceptMsg (exec (.spParsef (split S)) s)

/-- Conversion (42 R158, R159): a count, index or fill text that is not decimal is INVALID Structural, and the context
map is unchanged. -/
def Obligations.NumbersNotDecimal : Prop :=
  ∀ (s : State) (tag cnt idx k ch a f7 : Bytes), s.initialised = true → (tag = tagVdm ∨ tag = tagVdo) →
    (dec cnt = none ∨ dec idx = none ∨ dec (f7.takeWhile fun b => b != 0x2A) = none) →
      (∃ t, exec (.spParsef [tag, cnt, idx, k, ch, a, f7]) s = .next t ∧
        Wrote s t s.ctx [] 0 .invalid (some .structural) none none none ch) ∧
      (∀ opt S, fits s.params.sentMax S.length = true → split S = [tag, cnt, idx, k, ch, a, f7] →
        (opt = some false ∨ (opt = none ∧ s.chkDefault = false) ∨ checksumMatches S = true) →
          ∃ t, exec (.spParse opt S) s = .next t ∧
            Wrote s t s.ctx [] 0 .invalid (some .structural) none none none ch)

/-- `Fields` (42 R152, R158): a field list that converts runs the class its fragment numbers select, with `k = F[3]`,
`ch = F[4]`, `a = F[5]` taken as they are; the free message is left out of the comparison (10 R33). -/
def Obligations.ParseFieldsRunsTheClass : Prop :=
  ∀ (s : State) (own : Bool) (cnt idx k ch a f7 : Bytes) (c i f : Nat), s.initialised = true →
    dec cnt = some c → dec idx = some i → dec (f7.takeWhile fun b => b != 0x2A) = some f →
      let x : Fragment := ⟨own, c, i, k, ch, a, f, afterStar f7⟩
      exceptMsg (exec (.spParsef [if own then tagVdo else tagVdm, cnt, idx, k, ch, a, f7]) s) =
        exceptMsg (match classOf c i with
          | .single => exec (.sentSingle x) s
          | .first => exec (.sentFirst x) s
          | .middle => exec (.sentMiddle x) s
          | .final => exec (.sentFinal x) s
          | .badseq => exec (.sentBadseq x) s)

/-- A sentence presented to `SP.PARSE` runs the instruction it decodes into (00 R2, 42 R152), when step 2 does not
stop it; the free message is left out of the comparison (10 R33). -/
def Obligations.ParseRunsTheDecodedSentence : Prop :=
  ∀ (s : State) (opt : Option Bool) (S : Bytes) (i : Instr), s.initialised = true →
    fits s.params.sentMax S.length = true → decode (.sentence S) = .ok i →
    (opt = some false ∨ (opt = none ∧ s.chkDefault = false) ∨ checksumMatches S = true) →
      exceptMsg (exec (.spParse opt S) s) = exceptMsg (exec i s)

/-- The sentence of a well-formed single-fragment message goes all the way: `SP.PARSE` and `SP.PARSEF` end in step 7's
outcome on its payload (42 R152, 43 R171, 44 R190). -/
def Obligations.SingleSentenceParses : Prop :=
  ∀ (s : State) (x : Fragment), s.initialised = true → Unbounded s → (Instr.sentSingle x).wf = true → x.index = 1 →
    (∃ t, exec (.spParse (some false) (fragmentSentence x)) s = .next t ∧ Step7 x.armoured x.fill x.channel s t) ∧
    (∃ t, exec (.spParsef (fragmentFields x)) s = .next t ∧ Step7 x.armoured x.fill x.channel s t)

/-- Every parse call ends with a result (42 R151, R164; 43 R180): without capacities, on every sentence and on every
field list, whatever the bytes. -/
def Obligations.EveryParseEnds : Prop :=
  ∀ s : State, s.initialised = true → Unbounded s →
    (∀ opt S, ∃ t, exec (.spParse opt S) s = .next t ∧ t.result.isSome = true ∧ t.chkDefault = s.chkDefault) ∧
    (∀ L, ∃ t, exec (.spParsef L) s = .next t ∧ t.result.isSome = true ∧ t.chkDefault = s.chkDefault)

/-- Exceeding a finite capacity is refused (10 R26, 70 R256; 00 R8): a sentence by `SP.PARSE`, a text by `BC.LOAD`, by
step 7's load and so by `SENT.SINGLE` and `SENT.FINAL`, a context by `SENT.FIRST` and `SENT.MIDDLE`. Which length each
capacity bounds is the model's (log 9), and so is the order of the tests (log 20). -/
def Obligations.CapacitiesRefuse : Prop :=
  ∀ (s : State) (m : Nat), s.initialised = true →
    (∀ opt S, s.params.sentMax = some m → m < S.length → ∃ r, exec (.spParse opt S) s = .refused r) ∧
    (∀ fill text, s.params.textMax = some m → m < text.length → fill < 6 * text.length →
      ∃ r, exec (.bcLoad fill text) s = .refused r) ∧
    (∀ text f ch, s.params.textMax = some m → m < text.length → f < 6 * text.length →
      ∃ r, decodePayload text f ch s = .refused r) ∧
    (∀ x : Fragment, s.params.textMax = some m → m < x.armoured.length → x.fill < 6 * x.armoured.length →
      x.index = 1 → ∃ r, exec (.sentSingle x) s = .refused r) ∧
    (∀ x : Fragment, s.params.textMax = some m → m < x.armoured.length → x.fill = 0 →
      ctxHas x.seqId s.ctx = false → ∃ r, exec (.sentFirst x) s = .refused r) ∧
    (∀ x : Fragment, s.params.ctxCap = some m → m ≤ s.ctx.length → x.fill = 0 →
      ctxHas x.seqId s.ctx = false → ∃ r, exec (.sentFirst x) s = .refused r) ∧
    (∀ (x : Fragment) (acc : Bytes), s.params.textMax = some m → m < (acc ++ x.armoured).length → x.fill = 0 →
      ctxGet x.seqId s.ctx = some ⟨x.index, acc⟩ → ∃ r, exec (.sentMiddle x) s = .refused r) ∧
    (∀ (x : Fragment) (acc : Bytes), s.params.ctxCap = some m →
      m < (ctxPut x.seqId ⟨x.index + 1, acc ++ x.armoured⟩ s.ctx).length → x.fill = 0 →
      ctxGet x.seqId s.ctx = some ⟨x.index, acc⟩ → ∃ r, exec (.sentMiddle x) s = .refused r) ∧
    (∀ (x : Fragment) (acc : Bytes), s.params.textMax = some m → m < (acc ++ x.armoured).length →
      x.fill < 6 * (acc ++ x.armoured).length → ctxGet x.seqId s.ctx = some ⟨x.index, acc⟩ →
      ∃ r, exec (.sentFinal x) s = .refused r)

/-! ### The machine as a whole -/

/-- A step runs what the oldest thing presented decodes into, on the state without it (20 R61; the queue and the forms
presented are the model's, log 1, log 2); what decodes
into nothing is refused, and with nothing presented nothing happens (60 R226). -/
def Obligations.StepRunsTheDecoded : Prop :=
  ∀ (s : State) (x : Issue) (rest : List Issue),
    (∀ i, s.input = x :: rest → decode x = .ok i → step s = exec i { s with input := rest }) ∧
    (∀ e, s.input = x :: rest → decode x = .error e → step s = .refused (.undecodable e)) ∧
    (s.input = [] → step s = .next s)

/-- Every step keeps the invariant: the context map in canonical form, every context awaiting fragment 2 or later
(10 R28), the slot invariant (10 R29). -/
def Obligations.StepKeepsInvariant : Prop :=
  ∀ s t : State, Inv s → step s = .next t → Inv t

/-- After reset (10 R40) there is no live context, the slot is the zero-length codec, `RESULT` is none, and the invariant
holds (its canonical form is log 10). -/
def Obligations.ResetMeetsInvariant : Prop :=
  Inv State.reset ∧ State.reset.ctx = [] ∧ State.reset.text = [] ∧ State.reset.fill = 0 ∧ State.reset.result = none

/-- Every step keeps `RESULT` within the combinations of 10 R32. -/
def Obligations.StepKeepsReportTable : Prop :=
  ∀ s t : State, ReportOk s → step s = .next t → ReportOk t

/-- Only `SP.INIT` writes `CHK_DEFAULT` (10 R21), and it alone makes the block initialised (70 R241). -/
def Obligations.OnlyInitWritesControl : Prop :=
  ∀ (i : Instr) (s t : State), exec i s = .next t →
    (∀ c, i ≠ .spInit c) → t.chkDefault = s.chkDefault ∧ t.initialised = s.initialised

/-- Sequences with different identifiers do not interact (43 R178, 60 R222): whatever is run but `SP.INIT` changes at
most the context of the identifier it names (a parse's field 4), and what names none leaves the whole map alone. -/
def Obligations.OtherContextsUntouched : Prop :=
  ∀ (i : Instr) (s t : State), (∀ c, i ≠ .spInit c) → exec i s = .next t →
    (∀ k, keyOf i ≠ some k → ctxGet k t.ctx = ctxGet k s.ctx) ∧ (keyOf i = none → t.ctx = s.ctx)

/-- A sentence reads no entry of the context map but that of its own identifier (43 R178): from two states that differ
only in the map and agree on that entry, it ends with the same result, the free message apart (10 R33), the same slot
and the same entry. -/
def Obligations.SequencesDoNotInteract : Prop :=
  ∀ (s t t' : State) (c' : Ctx) (x : Fragment), ctxGet x.seqId c' = ctxGet x.seqId s.ctx →
    runClass x s = .next t → runClass x { s with ctx := c' } = .next t' →
      t.result.map Report.withoutMsg = t'.result.map Report.withoutMsg ∧ t.text = t'.text ∧ t.fill = t'.fill ∧ ctxGet x.seqId t.ctx = ctxGet x.seqId t'.ctx

/-- Structural and Checksum failures change only `RESULT` and the slot, which is emptied (60 R212, R222), in a parse call
from any state; of the model's own fields the codec's answer is cleared and one message is drawn (log 5, log 6). -/
def Obligations.EarlyFailuresKeepContexts : Prop :=
  ∀ (s t : State) (i : Instr) (r : Report), (∃ opt S, i = .spParse opt S) ∨ (∃ L, i = .spParsef L) →
    exec i s = .next t → t.result = some r → (r.kind = some .structural ∨ r.kind = some .checksum) →
      t = { s with text := [], fill := 0, result := some r, ret := .none, draws := s.draws + 1 }

/-- Nothing reads `RESULT` back (10 R31): two states that differ only in what was reported go on alike, whatever is
run. -/
def Obligations.ResultNeverReadBack : Prop :=
  ∀ (i : Instr) (s s' : State), SameButReported s s' → OutcomesAgree (exec i s) (exec i s')

/-- A parse call writes the result whatever was reported before: with any other `RESULT` before it, or none, it ends with
the same one, the free message apart (10 R31, R33). A codec operation leaves `RESULT` alone. Of the model's own fields a
parse call clears the codec's answer (log 5) and draws one message (log 6). -/
def Obligations.WhoWritesResult : Prop :=
  ∀ (i : Instr) (s t : State), exec i s = .next t →
    (isCodec i = true → t.result = s.result) ∧
    (((∃ opt S, i = .spParse opt S) ∨ (∃ L, i = .spParsef L)) →
      t.result.isSome = true ∧ t.ret = .none ∧ t.draws = s.draws + 1 ∧
      ∀ old, ∃ t', exec i { s with result := old } = .next t' ∧
        t'.result.map Report.withoutMsg = t.result.map Report.withoutMsg)

/-- The result word (30 R93), field by field, the status of a codec operation, and the host's read of `RESULT`, refused
while it is none (10 R40; that the model refuses it by a name of its own is log 25). -/
def Obligations.ResultWordFields : Prop :=
  (∀ r : Report,
    (r.word.extractLsb' 0 2).toNat = (match r.validity with
      | .valid => 0 | .incomplete => 1 | .invalid => 2 | .unsupported => 3) ∧
    (r.word.extractLsb' 2 3).toNat = (match r.kind with
      | none => 0 | some .structural => 1 | some .checksum => 2 | some .sequence => 3 | some .payload => 4
      | some .unsupportedType => 5) ∧
    (r.word.extractLsb' 5 3).toNat = (match r.exc with
      | none => 0 | some .malformedPayload => 1 | some .rangeError => 2 | some .invalidSymbol => 3
      | some .tooShort => 4 | some .external => 5) ∧
    r.word.getLsbD 8 = r.aisType.isSome ∧
    r.word.extractLsb' 9 6 = r.aisType.getD 0 ∧
    r.word.getLsbD 15 = r.decoder.isSome ∧
    (r.word.extractLsb' 16 4).toNat = (match r.decoder with
      | none => 0 | some .dec1to3 => 0 | some .dec4 => 1 | some .dec5 => 2 | some .dec8 => 3 | some .dec14 => 4
      | some .dec18 => 5 | some .dec19 => 6 | some .dec21 => 7 | some .dec24 => 8 | some .dec27 => 9) ∧
    r.word.extractLsb' 20 12 = 0) ∧
  (∀ v, (Answer.ok v).status = some 0) ∧ (Answer.raised .malformedPayload).status = some 1 ∧
  (Answer.raised .rangeError).status = some 2 ∧ (∀ k, (Answer.raised (.invalidSymbol k)).status = some 3) ∧
  (∀ s : State, (s.result = none → s.readResult = .refused .resultNotWritten) ∧
    ∀ r, s.result = some r → s.readResult = .next (r.word, r.channel, r.msg))

/-- The context primitives (00 R13): a put is read back, a delete removes, and no other key is touched. -/
def Obligations.ContextPrimitives : Prop :=
  ∀ (c : Ctx) (k : Bytes) (e : CtxEntry),
    (ctxHas k c = true ↔ ∃ e', ctxGet k c = some e') ∧
    ctxGet k (ctxPut k e c) = some e ∧ ctxGet k (ctxDel k c) = none ∧
    (ctxHas k c = false → ctxDel k c = c) ∧
    ∀ k', k' ≠ k → ctxGet k' (ctxPut k e c) = ctxGet k' c ∧ ctxGet k' (ctxDel k c) = ctxGet k' c
end

