-- ==== Sys2Proof/Laws/State.lean ====
section
/-! SUPPORT. One lemma per field per update of the state, true by rfl. -/

namespace Sys2Proof.Machine

@[simp] theorem withSlot_chkDefault (text : Bytes) (fill : Nat) (s : State) :
    (withSlot text fill s).chkDefault = s.chkDefault := rfl

@[simp] theorem withSlot_ctx (text : Bytes) (fill : Nat) (s : State) :
    (withSlot text fill s).ctx = s.ctx := rfl

@[simp] theorem withSlot_text (text : Bytes) (fill : Nat) (s : State) :
    (withSlot text fill s).text = text := rfl

@[simp] theorem withSlot_fill (text : Bytes) (fill : Nat) (s : State) :
    (withSlot text fill s).fill = fill := rfl

@[simp] theorem withSlot_result (text : Bytes) (fill : Nat) (s : State) :
    (withSlot text fill s).result = s.result := rfl

@[simp] theorem withSlot_initialised (text : Bytes) (fill : Nat) (s : State) :
    (withSlot text fill s).initialised = s.initialised := rfl

@[simp] theorem withSlot_ret (text : Bytes) (fill : Nat) (s : State) :
    (withSlot text fill s).ret = s.ret := rfl

@[simp] theorem withSlot_draws (text : Bytes) (fill : Nat) (s : State) :
    (withSlot text fill s).draws = s.draws := rfl

@[simp] theorem withSlot_params (text : Bytes) (fill : Nat) (s : State) :
    (withSlot text fill s).params = s.params := rfl

@[simp] theorem withSlot_mm (text : Bytes) (fill : Nat) (s : State) :
    (withSlot text fill s).mm = s.mm := rfl

@[simp] theorem withSlot_input (text : Bytes) (fill : Nat) (s : State) :
    (withSlot text fill s).input = s.input := rfl

@[simp] theorem emptySlot_chkDefault (s : State) :
    (emptySlot s).chkDefault = s.chkDefault := rfl

@[simp] theorem emptySlot_ctx (s : State) :
    (emptySlot s).ctx = s.ctx := rfl

@[simp] theorem emptySlot_text (s : State) :
    (emptySlot s).text = [] := rfl

@[simp] theorem emptySlot_fill (s : State) :
    (emptySlot s).fill = 0 := rfl

@[simp] theorem emptySlot_result (s : State) :
    (emptySlot s).result = s.result := rfl

@[simp] theorem emptySlot_initialised (s : State) :
    (emptySlot s).initialised = s.initialised := rfl

@[simp] theorem emptySlot_ret (s : State) :
    (emptySlot s).ret = s.ret := rfl

@[simp] theorem emptySlot_draws (s : State) :
    (emptySlot s).draws = s.draws := rfl

@[simp] theorem emptySlot_params (s : State) :
    (emptySlot s).params = s.params := rfl

@[simp] theorem emptySlot_mm (s : State) :
    (emptySlot s).mm = s.mm := rfl

@[simp] theorem emptySlot_input (s : State) :
    (emptySlot s).input = s.input := rfl

@[simp] theorem answer_chkDefault (v : CodecValue) (s : State) :
    (answer v s).chkDefault = s.chkDefault := rfl

@[simp] theorem answer_ctx (v : CodecValue) (s : State) :
    (answer v s).ctx = s.ctx := rfl

@[simp] theorem answer_text (v : CodecValue) (s : State) :
    (answer v s).text = s.text := rfl

@[simp] theorem answer_fill (v : CodecValue) (s : State) :
    (answer v s).fill = s.fill := rfl

@[simp] theorem answer_result (v : CodecValue) (s : State) :
    (answer v s).result = s.result := rfl

@[simp] theorem answer_initialised (v : CodecValue) (s : State) :
    (answer v s).initialised = s.initialised := rfl

@[simp] theorem answer_ret (v : CodecValue) (s : State) :
    (answer v s).ret = .ok v := rfl

@[simp] theorem answer_draws (v : CodecValue) (s : State) :
    (answer v s).draws = s.draws := rfl

@[simp] theorem answer_params (v : CodecValue) (s : State) :
    (answer v s).params = s.params := rfl

@[simp] theorem answer_mm (v : CodecValue) (s : State) :
    (answer v s).mm = s.mm := rfl

@[simp] theorem answer_input (v : CodecValue) (s : State) :
    (answer v s).input = s.input := rfl

@[simp] theorem raise_chkDefault (e : CodecExc) (s : State) :
    (raise e s).chkDefault = s.chkDefault := rfl

@[simp] theorem raise_ctx (e : CodecExc) (s : State) :
    (raise e s).ctx = s.ctx := rfl

@[simp] theorem raise_text (e : CodecExc) (s : State) :
    (raise e s).text = s.text := rfl

@[simp] theorem raise_fill (e : CodecExc) (s : State) :
    (raise e s).fill = s.fill := rfl

@[simp] theorem raise_result (e : CodecExc) (s : State) :
    (raise e s).result = s.result := rfl

@[simp] theorem raise_initialised (e : CodecExc) (s : State) :
    (raise e s).initialised = s.initialised := rfl

@[simp] theorem raise_ret (e : CodecExc) (s : State) :
    (raise e s).ret = .raised e := rfl

@[simp] theorem raise_draws (e : CodecExc) (s : State) :
    (raise e s).draws = s.draws := rfl

@[simp] theorem raise_params (e : CodecExc) (s : State) :
    (raise e s).params = s.params := rfl

@[simp] theorem raise_mm (e : CodecExc) (s : State) :
    (raise e s).mm = s.mm := rfl

@[simp] theorem raise_input (e : CodecExc) (s : State) :
    (raise e s).input = s.input := rfl

@[simp] theorem dropContext_chkDefault (k : Bytes) (s : State) :
    (dropContext k s).chkDefault = s.chkDefault := rfl

@[simp] theorem dropContext_ctx (k : Bytes) (s : State) :
    (dropContext k s).ctx = ctxDel k s.ctx := rfl

@[simp] theorem dropContext_text (k : Bytes) (s : State) :
    (dropContext k s).text = s.text := rfl

@[simp] theorem dropContext_fill (k : Bytes) (s : State) :
    (dropContext k s).fill = s.fill := rfl

@[simp] theorem dropContext_result (k : Bytes) (s : State) :
    (dropContext k s).result = s.result := rfl

@[simp] theorem dropContext_initialised (k : Bytes) (s : State) :
    (dropContext k s).initialised = s.initialised := rfl

@[simp] theorem dropContext_ret (k : Bytes) (s : State) :
    (dropContext k s).ret = s.ret := rfl

@[simp] theorem dropContext_draws (k : Bytes) (s : State) :
    (dropContext k s).draws = s.draws := rfl

@[simp] theorem dropContext_params (k : Bytes) (s : State) :
    (dropContext k s).params = s.params := rfl

@[simp] theorem dropContext_mm (k : Bytes) (s : State) :
    (dropContext k s).mm = s.mm := rfl

@[simp] theorem dropContext_input (k : Bytes) (s : State) :
    (dropContext k s).input = s.input := rfl

@[simp] theorem writeResult_chkDefault (v : Validity) (kind : Option Kind) (exc : Option Cause) (t : Option Sym) (d : Option Decoder)
    (ch : Bytes) (s : State) :
    (writeResult v kind exc t d ch s).chkDefault = s.chkDefault := rfl

@[simp] theorem writeResult_ctx (v : Validity) (kind : Option Kind) (exc : Option Cause) (t : Option Sym) (d : Option Decoder)
    (ch : Bytes) (s : State) :
    (writeResult v kind exc t d ch s).ctx = s.ctx := rfl

@[simp] theorem writeResult_text (v : Validity) (kind : Option Kind) (exc : Option Cause) (t : Option Sym) (d : Option Decoder)
    (ch : Bytes) (s : State) :
    (writeResult v kind exc t d ch s).text = s.text := rfl

@[simp] theorem writeResult_fill (v : Validity) (kind : Option Kind) (exc : Option Cause) (t : Option Sym) (d : Option Decoder)
    (ch : Bytes) (s : State) :
    (writeResult v kind exc t d ch s).fill = s.fill := rfl

@[simp] theorem writeResult_result (v : Validity) (kind : Option Kind) (exc : Option Cause) (t : Option Sym) (d : Option Decoder)
    (ch : Bytes) (s : State) :
    (writeResult v kind exc t d ch s).result = some ⟨v, kind, exc, Config.freeMessage s.draws, t, d, ch⟩ := rfl

@[simp] theorem writeResult_initialised (v : Validity) (kind : Option Kind) (exc : Option Cause) (t : Option Sym) (d : Option Decoder)
    (ch : Bytes) (s : State) :
    (writeResult v kind exc t d ch s).initialised = s.initialised := rfl

@[simp] theorem writeResult_ret (v : Validity) (kind : Option Kind) (exc : Option Cause) (t : Option Sym) (d : Option Decoder)
    (ch : Bytes) (s : State) :
    (writeResult v kind exc t d ch s).ret = .none := rfl

@[simp] theorem writeResult_draws (v : Validity) (kind : Option Kind) (exc : Option Cause) (t : Option Sym) (d : Option Decoder)
    (ch : Bytes) (s : State) :
    (writeResult v kind exc t d ch s).draws = s.draws + 1 := rfl

@[simp] theorem writeResult_params (v : Validity) (kind : Option Kind) (exc : Option Cause) (t : Option Sym) (d : Option Decoder)
    (ch : Bytes) (s : State) :
    (writeResult v kind exc t d ch s).params = s.params := rfl

@[simp] theorem writeResult_mm (v : Validity) (kind : Option Kind) (exc : Option Cause) (t : Option Sym) (d : Option Decoder)
    (ch : Bytes) (s : State) :
    (writeResult v kind exc t d ch s).mm = s.mm := rfl

@[simp] theorem writeResult_input (v : Validity) (kind : Option Kind) (exc : Option Cause) (t : Option Sym) (d : Option Decoder)
    (ch : Bytes) (s : State) :
    (writeResult v kind exc t d ch s).input = s.input := rfl

@[simp] theorem fail_chkDefault (v : Validity) (kind : Kind) (ch : Bytes) (s : State) :
    (fail v kind ch s).chkDefault = s.chkDefault := rfl

@[simp] theorem fail_ctx (v : Validity) (kind : Kind) (ch : Bytes) (s : State) :
    (fail v kind ch s).ctx = s.ctx := rfl

@[simp] theorem fail_text (v : Validity) (kind : Kind) (ch : Bytes) (s : State) :
    (fail v kind ch s).text = [] := rfl

@[simp] theorem fail_fill (v : Validity) (kind : Kind) (ch : Bytes) (s : State) :
    (fail v kind ch s).fill = 0 := rfl

@[simp] theorem fail_result (v : Validity) (kind : Kind) (ch : Bytes) (s : State) :
    (fail v kind ch s).result = some ⟨v, some kind, none, Config.freeMessage s.draws, none, none, ch⟩ := rfl

@[simp] theorem fail_initialised (v : Validity) (kind : Kind) (ch : Bytes) (s : State) :
    (fail v kind ch s).initialised = s.initialised := rfl

@[simp] theorem fail_ret (v : Validity) (kind : Kind) (ch : Bytes) (s : State) :
    (fail v kind ch s).ret = .none := rfl

@[simp] theorem fail_draws (v : Validity) (kind : Kind) (ch : Bytes) (s : State) :
    (fail v kind ch s).draws = s.draws + 1 := rfl

@[simp] theorem fail_params (v : Validity) (kind : Kind) (ch : Bytes) (s : State) :
    (fail v kind ch s).params = s.params := rfl

@[simp] theorem fail_mm (v : Validity) (kind : Kind) (ch : Bytes) (s : State) :
    (fail v kind ch s).mm = s.mm := rfl

@[simp] theorem fail_input (v : Validity) (kind : Kind) (ch : Bytes) (s : State) :
    (fail v kind ch s).input = s.input := rfl

@[simp] theorem incomplete_chkDefault (ch : Bytes) (s : State) :
    (incomplete ch s).chkDefault = s.chkDefault := rfl

@[simp] theorem incomplete_ctx (ch : Bytes) (s : State) :
    (incomplete ch s).ctx = s.ctx := rfl

@[simp] theorem incomplete_text (ch : Bytes) (s : State) :
    (incomplete ch s).text = [] := rfl

@[simp] theorem incomplete_fill (ch : Bytes) (s : State) :
    (incomplete ch s).fill = 0 := rfl

@[simp] theorem incomplete_result (ch : Bytes) (s : State) :
    (incomplete ch s).result = some ⟨.incomplete, none, none, Config.freeMessage s.draws, none, none, ch⟩ := rfl

@[simp] theorem incomplete_initialised (ch : Bytes) (s : State) :
    (incomplete ch s).initialised = s.initialised := rfl

@[simp] theorem incomplete_ret (ch : Bytes) (s : State) :
    (incomplete ch s).ret = .none := rfl

@[simp] theorem incomplete_draws (ch : Bytes) (s : State) :
    (incomplete ch s).draws = s.draws + 1 := rfl

@[simp] theorem incomplete_params (ch : Bytes) (s : State) :
    (incomplete ch s).params = s.params := rfl

@[simp] theorem incomplete_mm (ch : Bytes) (s : State) :
    (incomplete ch s).mm = s.mm := rfl

@[simp] theorem incomplete_input (ch : Bytes) (s : State) :
    (incomplete ch s).input = s.input := rfl

@[simp] theorem catchPayload_chkDefault (c : Cause) (t : Option Sym) (d : Option Decoder) (ch : Bytes) (s : State) :
    (catchPayload c t d ch s).chkDefault = s.chkDefault := rfl

@[simp] theorem catchPayload_ctx (c : Cause) (t : Option Sym) (d : Option Decoder) (ch : Bytes) (s : State) :
    (catchPayload c t d ch s).ctx = s.ctx := rfl

@[simp] theorem catchPayload_text (c : Cause) (t : Option Sym) (d : Option Decoder) (ch : Bytes) (s : State) :
    (catchPayload c t d ch s).text = s.text := rfl

@[simp] theorem catchPayload_fill (c : Cause) (t : Option Sym) (d : Option Decoder) (ch : Bytes) (s : State) :
    (catchPayload c t d ch s).fill = s.fill := rfl

@[simp] theorem catchPayload_result (c : Cause) (t : Option Sym) (d : Option Decoder) (ch : Bytes) (s : State) :
    (catchPayload c t d ch s).result = some ⟨.invalid, some .payload, some c, Config.freeMessage s.draws, t, d, ch⟩ := rfl

@[simp] theorem catchPayload_initialised (c : Cause) (t : Option Sym) (d : Option Decoder) (ch : Bytes) (s : State) :
    (catchPayload c t d ch s).initialised = s.initialised := rfl

@[simp] theorem catchPayload_ret (c : Cause) (t : Option Sym) (d : Option Decoder) (ch : Bytes) (s : State) :
    (catchPayload c t d ch s).ret = .none := rfl

@[simp] theorem catchPayload_draws (c : Cause) (t : Option Sym) (d : Option Decoder) (ch : Bytes) (s : State) :
    (catchPayload c t d ch s).draws = s.draws + 1 := rfl

@[simp] theorem catchPayload_params (c : Cause) (t : Option Sym) (d : Option Decoder) (ch : Bytes) (s : State) :
    (catchPayload c t d ch s).params = s.params := rfl

@[simp] theorem catchPayload_mm (c : Cause) (t : Option Sym) (d : Option Decoder) (ch : Bytes) (s : State) :
    (catchPayload c t d ch s).mm = s.mm := rfl

@[simp] theorem catchPayload_input (c : Cause) (t : Option Sym) (d : Option Decoder) (ch : Bytes) (s : State) :
    (catchPayload c t d ch s).input = s.input := rfl

end Sys2Proof.Machine
end

