-- ==== Sys2Proof/Laws/Ctx.lean ====
section
/-! SUPPORT. The order on keys is strict and total, and every operation on the context map keeps its canonical form
(spec/00_scope.md R13; log 10). -/

namespace Sys2Proof.Machine

@[simp] theorem bytesLt_nil_right (a : Bytes) : bytesLt a [] = false := by cases a <;> rfl

@[simp] theorem bytesLt_nil_cons (b : Byte) (bs : Bytes) : bytesLt [] (b :: bs) = true := rfl

theorem bytesLt_cons (a b : Byte) (as bs : Bytes) :
    bytesLt (a :: as) (b :: bs) = if a = b then bytesLt as bs else decide (a.toNat < b.toNat) := rfl

theorem bytesLt_irrefl (a : Bytes) : bytesLt a a = false := by
  induction a with
  | nil => rfl
  | cons x xs ih => simp [bytesLt_cons, ih]

theorem bytesLt_trans {a b c : Bytes} (hab : bytesLt a b = true) (hbc : bytesLt b c = true) : bytesLt a c = true := by
  induction a generalizing b c with
  | nil =>
    cases c with
    | nil => simp at hbc
    | cons z zs => rfl
  | cons x xs ih =>
    cases b with
    | nil => simp at hab
    | cons y ys =>
      cases c with
      | nil => simp at hbc
      | cons z zs =>
        rw [bytesLt_cons] at hab hbc ⊢
        by_cases hxy : x = y
        · subst hxy
          by_cases hxz : x = z
          · simp only [hxz, if_true] at hab hbc ⊢
            exact ih hab hbc
          · simp_all
        · by_cases hyz : y = z
          · subst hyz; simp_all
          · simp only [hxy, hyz, if_false, decide_eq_true_eq] at hab hbc
            have hxz : x ≠ z := by rintro rfl; omega
            simp only [hxz, if_false, decide_eq_true_eq]
            omega

/-- Two keys of which neither is smaller are equal. -/
theorem bytesLt_total {a b : Bytes} (hne : a ≠ b) (h : bytesLt a b = false) : bytesLt b a = true := by
  induction a generalizing b with
  | nil =>
    cases b with
    | nil => exact absurd rfl hne
    | cons y ys => simp at h
  | cons x xs ih =>
    cases b with
    | nil => rfl
    | cons y ys =>
      rw [bytesLt_cons] at h ⊢
      by_cases hxy : x = y
      · subst hxy
        simp only [if_true] at h ⊢
        exact ih (fun e => hne (by rw [e])) h
      · have hyx : y ≠ x := fun e => hxy e.symm
        simp only [hxy, hyx, if_false, decide_eq_false_iff_not, decide_eq_true_eq] at h ⊢
        have : x.toNat ≠ y.toNat := fun e => hxy (BitVec.eq_of_toNat_eq e)
        omega

theorem mem_ctxPut {k : Bytes} {e : CtxEntry} {c : Ctx} {p : Bytes × CtxEntry} (h : p ∈ ctxPut k e c) :
    p = (k, e) ∨ p ∈ c := by
  induction c with
  | nil => simpa [ctxPut] using h
  | cons q r ih =>
    obtain ⟨k', e'⟩ := q
    simp only [ctxPut] at h
    split at h
    · rcases List.mem_cons.1 h with h | h
      · exact .inl h
      · exact .inr (List.mem_cons_of_mem _ h)
    · split at h
      · rcases List.mem_cons.1 h with h | h
        · exact .inl h
        · exact .inr h
      · rcases List.mem_cons.1 h with h | h
        · exact .inr (h ▸ List.mem_cons_self)
        · exact (ih h).imp_right (List.mem_cons_of_mem _)

/-- `CtxPut` keeps the canonical form. -/
theorem ctxPut_wf (k : Bytes) (e : CtxEntry) {c : Ctx} (h : Ctx.wf c) : Ctx.wf (ctxPut k e c) := by
  induction c with
  | nil => simp [Ctx.wf, ctxPut]
  | cons q r ih =>
    obtain ⟨k', e'⟩ := q
    obtain ⟨hq, hr⟩ := List.pairwise_cons.1 h
    simp only [ctxPut]
    split
    · next hk => subst hk; exact List.pairwise_cons.2 ⟨fun p hp => hq p hp, hr⟩
    · next hk =>
      split
      · next hlt =>
        refine List.pairwise_cons.2 ⟨fun p hp => ?_, h⟩
        rcases List.mem_cons.1 hp with rfl | hp
        · exact hlt
        · exact bytesLt_trans hlt (hq p hp)
      · next hlt =>
        refine List.pairwise_cons.2 ⟨fun p hp => ?_, ih hr⟩
        rcases mem_ctxPut hp with rfl | hp
        · exact bytesLt_total (fun e => hk e.symm) (by simpa using hlt)
        · exact hq p hp

/-- `CtxDel` keeps the canonical form. -/
theorem ctxDel_wf (k : Bytes) {c : Ctx} (h : Ctx.wf c) : Ctx.wf (ctxDel k c) :=
  List.Pairwise.filter _ h

theorem mem_ctxDel {k : Bytes} {c : Ctx} {p : Bytes × CtxEntry} (h : p ∈ ctxDel k c) : p ∈ c :=
  List.mem_of_mem_filter h

theorem mem_of_ctxGet {k : Bytes} {c : Ctx} {e : CtxEntry} (h : ctxGet k c = some e) : (k, e) ∈ c := by
  induction c with
  | nil => simp [ctxGet] at h
  | cons q r ih =>
    obtain ⟨k', e'⟩ := q
    simp only [ctxGet] at h
    split at h
    · next hk => simp_all
    · exact List.mem_cons_of_mem _ (ih h)

/-- Every store of the model keeps the canonical form of the context map, and the reset state has it. -/
theorem reset_memory_wf : Memory.wf State.reset := List.Pairwise.nil

end Sys2Proof.Machine
end

