-- ==== Sys2Proof/Laws/Ops.lean ====
section
/-! SUPPORT. For each shared operation one lemma that says everything it can do. -/

namespace Sys2Proof.Machine

variable {α β : Type}

@[simp] theorem andThen_next (a : α) (k : α → Host.Outcome β Fault Refusal) : andThen (.next a) k = k a := rfl

@[simp] theorem andThen_refused (r : Refusal) (k : α → Host.Outcome β Fault Refusal) :
    andThen (.refused r) k = .refused r := rfl

/-- What `andThen` can do. -/
theorem andThen_eq_next {o : Host.Outcome α Fault Refusal} {k : α → Host.Outcome β Fault Refusal} {b : β}
    (h : andThen o k = .next b) : ∃ a, o = .next a ∧ k a = .next b := by
  cases o with
  | next a => exact ⟨a, rfl, h⟩
  | fault f => exact nomatch f
  | refused r => cases h

@[simp] theorem whenReady_ready {s : State} (h : s.initialised = true) (o : Outcome) : whenReady s o = o := by
  simp [whenReady, h]

@[simp] theorem whenReady_not_ready {s : State} (h : s.initialised = false) (o : Outcome) :
    whenReady s o = .refused .notInitialised := by
  simp [whenReady, h]

theorem whenReady_eq_next {s t : State} {o : Outcome} (h : whenReady s o = .next t) :
    s.initialised = true ∧ o = .next t := by
  cases hi : s.initialised with
  | true => exact ⟨rfl, by simpa [hi] using h⟩
  | false => simp [hi] at h

@[simp] theorem fits_none (n : Nat) : fits none n = true := rfl

theorem fits_some (m n : Nat) : fits (some m) n = decide (n ≤ m) := rfl

/-- What a store of a context can do. -/
theorem storeContext_eq_next {k acc : Bytes} {n : Nat} {s t : State} (h : storeContext k n acc s = .next t) :
    t = { s with ctx := ctxPut k ⟨n, acc⟩ s.ctx } := by
  simp only [storeContext] at h
  split at h
  · cases h
  · split at h
    · cases h
    · exact (Host.Outcome.next.inj h).symm

theorem storeContext_of_fits {k acc : Bytes} {n : Nat} {s : State} (ht : fits s.params.textMax acc.length = true)
    (hc : fits s.params.ctxCap (ctxPut k ⟨n, acc⟩ s.ctx).length = true) :
    storeContext k n acc s = .next { s with ctx := ctxPut k ⟨n, acc⟩ s.ctx } := by
  simp [storeContext, ht, hc]

/-- What a load can do: the zero-length codec, the text loaded whole, or `MalformedPayload`. -/
theorem loadSlot_eq_next {text : Bytes} {fill : Nat} {s : State} {r : Except CodecExc State}
    (h : loadSlot text fill s = .next r) :
    (text = [] ∧ fill = 0 ∧ r = .ok (emptySlot s)) ∨
    (6 * text.length ≤ fill ∧ ¬(text = [] ∧ fill = 0) ∧ r = .error .malformedPayload) ∨
    (fill < 6 * text.length ∧ r = .ok (withSlot text fill s)) := by
  simp only [loadSlot] at h
  split at h
  · next h0 => exact .inl ⟨h0.1, h0.2, (Host.Outcome.next.inj h).symm⟩
  · next h0 =>
    split at h
    · next h1 => exact .inr (.inl ⟨h1, h0, (Host.Outcome.next.inj h).symm⟩)
    · next h1 =>
      split at h
      · exact .inr (.inr ⟨by omega, (Host.Outcome.next.inj h).symm⟩)
      · cases h

/-- What a reader's reply can do: only the answer changes. -/
theorem reply_eq_next {r : Except CodecExc α} {wrap : α → CodecValue} {s t : State} (h : reply r wrap s = .next t) :
    (∃ v, r = .ok v ∧ t = answer (wrap v) s) ∨ (∃ e, r = .error e ∧ t = raise e s) := by
  cases r with
  | ok v => exact .inl ⟨v, rfl, (Host.Outcome.next.inj h).symm⟩
  | error e => exact .inr ⟨e, rfl, (Host.Outcome.next.inj h).symm⟩

/-- What a dispatch case can do: write the result, by the Message Model's answer, and leave the slot. -/
theorem dispatchTo_cases (d : Decoder) (t : Sym) (ch : Bytes) (s : State) :
    dispatchTo d t ch s = catchPayload .tooShort (some t) (some d) ch s ∨
    dispatchTo d t ch s = catchPayload .external (some t) (some d) ch s ∨
    dispatchTo d t ch s = writeResult .valid none none (some t) (some d) ch s := by
  simp only [dispatchTo]
  split <;> simp

end Sys2Proof.Machine
end

