-- ==== Sys2Proof/Laws/Codec.lean ====
section
/-! SUPPORT. The symbol fetch and the payload bits (spec/40_bit_codec.md R104): what a fetch answers. -/

namespace Sys2Proof.Machine

@[simp] theorem symBits_length (v : Sym) : (symBits v).length = 6 := rfl

/-- A fetch answers the symbols of the span, or the first illegal byte's exception. -/
theorem fetch_succ (text : Bytes) (k n : Nat) :
    fetch text k (n + 1) =
      match sym text k with
      | .error e => .error e
      | .ok v =>
        match fetch text (k + 1) n with
        | .error e => .error e
        | .ok vs => .ok (v :: vs) := rfl

theorem fetch_length {text : Bytes} {k n : Nat} {vs : List Sym} (h : fetch text k n = .ok vs) : vs.length = n := by
  induction n generalizing k vs with
  | zero => cases h; rfl
  | succ n ih =>
    rw [fetch_succ] at h
    split at h
    · cases h
    · split at h
      · cases h
      · next hv => cases h; simp [ih hv]

theorem sym_of_legal {text : Bytes} {k : Nat} {b : Byte} {v : Sym} (hb : text[k]? = some b)
    (hv : dearmour b = some v) : sym text k = .ok v := by
  simp [sym, hb, hv]

theorem natOfBits_nil : natOfBits [] = 0 := rfl

theorem natOfBits_append_singleton (bs : List Bool) (b : Bool) :
    natOfBits (bs ++ [b]) = 2 * natOfBits bs + b.toNat := by
  simp [natOfBits, List.foldl_append]

/-- `Sym(k)` in terms of `symbolAt`. -/
theorem sym_eq (text : Bytes) (k : Nat) :
    sym text k = match symbolAt text k with | some v => .ok v | none => .error (.invalidSymbol k) := by
  unfold sym symbolAt
  cases text[k]? with
  | none => rfl
  | some b => cases h : dearmour b <;> simp [h]

/-- A fetch whose symbols are all legal answers them in order. -/
theorem fetch_legal (text : Bytes) (n k : Nat) (h : ∀ j, j < n → (symbolAt text (k + j)).isSome = true) :
    fetch text k n = .ok ((List.range n).map fun j => (symbolAt text (k + j)).getD 0) := by
  induction n generalizing k with
  | zero => rfl
  | succ n ih =>
    obtain ⟨v, hv⟩ := Option.isSome_iff_exists.1 (h 0 (by omega))
    rw [Nat.add_zero] at hv
    have h2 := ih (k + 1) (fun j hj => by have := h (j + 1) (by omega); rwa [show k + 1 + j = k + (j + 1) by omega])
    rw [fetch_succ, sym_eq, hv]
    simp only [h2, List.range_succ_eq_map, List.map_cons, Nat.add_zero, hv, Option.getD_some, List.map_map]
    congr 2
    apply List.map_congr_left
    intro j _
    simp [Function.comp, show k + 1 + j = k + (j + 1) by omega]

/-- A fetch raises at its first illegal symbol. -/
theorem fetch_illegal (text : Bytes) (n k m : Nat) (hm : m < n) (hb : symbolAt text (k + m) = none)
    (h : ∀ j, j < m → (symbolAt text (k + j)).isSome = true) :
    fetch text k n = .error (.invalidSymbol (k + m)) := by
  induction n generalizing k m with
  | zero => omega
  | succ n ih =>
    rw [fetch_succ, sym_eq]
    cases m with
    | zero => rw [Nat.add_zero] at hb; simp [hb]
    | succ m =>
      obtain ⟨v, hv⟩ := Option.isSome_iff_exists.1 (h 0 (by omega))
      rw [Nat.add_zero] at hv
      rw [hv, ih (k + 1) m (by omega) (by rw [← hb]; congr 1; omega)
        (fun j hj => by have := h (j + 1) (by omega); rwa [show k + 1 + j = k + (j + 1) by omega])]
      simp only []
      congr 2; omega

theorem symBits_get (v : Sym) (i : Nat) (h : i < 6) : (symBits v)[i]? = some (v.getLsbD (5 - i)) := by
  unfold symBits
  have : i = 0 ∨ i = 1 ∨ i = 2 ∨ i = 3 ∨ i = 4 ∨ i = 5 := by omega
  rcases this with rfl | rfl | rfl | rfl | rfl | rfl <;> rfl

/-- Bit `i` of the symbols laid end to end. -/
theorem flat_get (vs : List Sym) (i : Nat) (h : i < 6 * vs.length) :
    (vs.flatMap symBits)[i]? = some ((vs.getD (i / 6) 0).getLsbD (5 - i % 6)) := by
  induction vs generalizing i with
  | nil => simp at h
  | cons v vs ih =>
    rw [List.flatMap_cons]
    by_cases hi : i < 6
    · rw [List.getElem?_append_left (by simpa using hi), symBits_get v i hi]
      simp [Nat.div_eq_of_lt hi, Nat.mod_eq_of_lt hi]
    · rw [List.getElem?_append_right (by simp; omega)]
      simp only [symBits_length]
      rw [ih (i - 6) (by simp at h; omega)]
      have e1 : i / 6 = (i - 6) / 6 + 1 := by omega
      have e2 : (i - 6) % 6 = i % 6 := by omega
      rw [e1, e2]; rfl

theorem flat_length (vs : List Sym) : (vs.flatMap symBits).length = 6 * vs.length := by
  induction vs with
  | nil => rfl
  | cons v vs ih => rw [List.flatMap_cons, List.length_append, ih]; simp; omega

theorem payloadBit_eq (text : Bytes) (a : Nat) (v : Sym) (h : symbolAt text (a / 6) = some v) :
    payloadBit text a = v.getLsbD (5 - a % 6) := by
  unfold payloadBit; rw [sym_eq, h]

/-- The number of a row of bits, in the closed form of 40 R107. -/
theorem natOfBits_range (f : Nat → Bool) (l : Nat) :
    natOfBits ((List.range l).map f) = ((List.range l).map fun j => (f j).toNat * 2 ^ (l - 1 - j)).sum := by
  induction l with
  | zero => rfl
  | succ l ih =>
    rw [List.range_succ, List.map_append, List.map_singleton, natOfBits_append_singleton, ih, List.map_append,
      List.sum_append, ← List.sum_map_mul_left]
    simp only [List.map_cons, List.map_nil, List.sum_cons, List.sum_nil]
    congr 1
    · congr 1
      apply List.map_congr_left
      intro j hj
      have : j < l := by simpa using hj
      have e : l + 1 - 1 - j = (l - 1 - j) + 1 := by omega
      rw [e, pow_succ]; ring
    · simp

end Sys2Proof.Machine
end

