-- ==== Sys2Proof/Laws/Decode.lean ====
section
/-! SUPPORT. The fields of a command word (spec/30_encoding.md R90), and the shape of the pieces a sentence splits into
(R71). -/

namespace Sys2Proof

@[simp] theorem cmdWord_op (op : BitVec 4) (len : BitVec 12) (low : BitVec 16) :
    (cmdWord op len low).extractLsb' 28 4 = op := by
  apply BitVec.eq_of_getLsbD_eq
  intro i hi
  simp only [cmdWord, BitVec.getLsbD_extractLsb', BitVec.getLsbD_append]
  simp [hi, show ¬ 28 + i < 16 by omega, show 28 + i - 16 = 12 + i by omega, show ¬ 12 + i < 12 by omega]

@[simp] theorem cmdWord_len (op : BitVec 4) (len : BitVec 12) (low : BitVec 16) :
    (cmdWord op len low).extractLsb' 16 12 = len := by
  apply BitVec.eq_of_getLsbD_eq
  intro i hi
  simp only [cmdWord, BitVec.getLsbD_extractLsb', BitVec.getLsbD_append]
  simp [hi, show ¬ 16 + i < 16 by omega]

@[simp] theorem cmdWord_low (op : BitVec 4) (len : BitVec 12) (low : BitVec 16) :
    (cmdWord op len low).extractLsb' 0 16 = low := by
  apply BitVec.eq_of_getLsbD_eq
  intro i hi
  simp only [cmdWord, BitVec.getLsbD_extractLsb', BitVec.getLsbD_append]
  simp [hi]

theorem split_ne_nil (S : Bytes) : split S ≠ [] := by
  cases S with
  | nil => simp [split]
  | cons b r =>
    unfold split
    split
    · simp
    · split <;> simp

theorem split_cons_ne {b : Byte} {r : Bytes} (h : b ≠ comma) :
    ∃ f fs, split r = f :: fs ∧ split (b :: r) = (b :: f) :: fs := by
  match hs : split r with
  | [] => exact absurd hs (split_ne_nil r)
  | f :: fs => exact ⟨f, fs, rfl, by simp [split, h, hs]⟩

theorem joinFields_cons (b : Byte) (f : Bytes) (fs : List Bytes) :
    joinFields ((b :: f) :: fs) = b :: joinFields (f :: fs) := by
  cases fs <;> rfl

end Sys2Proof
end

