-- ==== Sys2Proof/Laws/Steps.lean ====
section
/-! SUPPORT. What each kind of instruction can do, once: a dispatch case, step 7, a sentence, a parse, a codec
operation. The claims about all steps cite these and never unfold a meaning. -/

namespace Sys2Proof.Machine

/-- What a parse or a sentence can do to the state: one context named `k` is kept, removed or written, the slot is
replaced whole, one legal report is written. -/
def Parsed (k : Bytes) (s t : State) : Prop :=
  ∃ (c : Ctx) (text : Bytes) (fill : Nat) (v : Validity) (kind : Option Kind) (exc : Option Cause)
    (ty : Option Sym) (d : Option Decoder) (ch : Bytes),
    t = writeResult v kind exc ty d ch (withSlot text fill { s with ctx := c }) ∧
    (c = s.ctx ∨ c = ctxDel k s.ctx ∨ ∃ n acc, c = ctxPut k ⟨n, acc⟩ s.ctx ∧
      (n = 2 ∨ ∃ e, ctxGet k s.ctx = some e ∧ n = e.next + 1)) ∧
    ((text = [] ∧ fill = 0) ∨ fill < 6 * text.length) ∧
    (∀ m, (Report.mk v kind exc m ty d ch).legal) ∧
    (kind = some .structural ∨ kind = some .checksum → c = s.ctx ∧ text = [] ∧ fill = 0)

/-- Leaving out the message, case by case. -/
@[simp] theorem exceptMsg_next (t : State) : exceptMsg (.next t) = .next t.withoutMsg := rfl
@[simp] theorem exceptMsg_refused (r : Refusal) : exceptMsg (.refused r) = .refused r := rfl

/-- What was written does not show the message. -/
@[simp] theorem withoutMsg_writeResult (v : Validity) (kind : Option Kind) (exc : Option Cause) (ty : Option Sym)
    (d : Option Decoder) (ch : Bytes) (s : State) :
    (writeResult v kind exc ty d ch s).result.map Report.withoutMsg = some ⟨v, kind, exc, [], ty, d, ch⟩ := rfl

/-- What a dispatch case can do. -/
theorem runType_eq_next {ty : Sym} {ch : Bytes} {s t : State} (h : runType ty ch s = .next t) :
    s.initialised = true ∧
      ((dispatchTable ty = none ∧ t = unsupportedType ty ch s) ∨
        ∃ d, dispatchTable ty = some d ∧ t = dispatchTo d ty ch s) := by
  obtain ⟨⟨n, hn⟩⟩ := ty
  have hn : n < 64 := hn
  interval_cases n <;> obtain ⟨hi, h⟩ := whenReady_eq_next h <;> cases h <;> refine ⟨hi, ?_⟩ <;>
    first
      | exact .inl ⟨rfl, rfl⟩
      | exact .inr ⟨_, rfl, rfl⟩

/-- A failure of the Sentence Parser or of reassembly. -/
theorem parsed_fail {k : Bytes} {s : State} {v : Validity} {kind : Kind} {ch : Bytes} {c : Ctx}
    (hc : c = s.ctx ∨ c = ctxDel k s.ctx) (hl : ∀ m, (Report.mk v (some kind) none m none none ch).legal)
    (hk : kind = .structural ∨ kind = .checksum → c = s.ctx) :
    Parsed k s (fail v kind ch { s with ctx := c }) :=
  ⟨c, [], 0, v, some kind, none, none, none, ch, rfl, hc.imp_right .inl, .inl ⟨rfl, rfl⟩, hl,
    fun h => ⟨hk (h.imp Option.some.inj Option.some.inj), rfl, rfl⟩⟩

/-- What step 7 can do, from a state whose context map is `s`'s, or that without `k`. -/
theorem parsed_decodePayload {k text ch : Bytes} {f : Nat} {c : Ctx} {s t : State}
    (hc : c = s.ctx ∨ c = ctxDel k s.ctx) (h : decodePayload text f ch { s with ctx := c } = .next t) :
    Parsed k s t := by
  have hc' : c = s.ctx ∨ c = ctxDel k s.ctx ∨ ∃ n acc, c = ctxPut k ⟨n, acc⟩ s.ctx ∧
      (n = 2 ∨ ∃ e, ctxGet k s.ctx = some e ∧ n = e.next + 1) := hc.imp_right .inl
  obtain ⟨r, hr, h⟩ := andThen_eq_next h
  have go : ∀ text f, ((text = [] ∧ f = 0) ∨ f < 6 * text.length) →
      r = .ok (withSlot text f { s with ctx := c }) → Parsed k s t := by
    rintro text f hs rfl
    simp only at h
    split at h
    · next e he =>
      cases h
      exact ⟨c, text, f, _, _, _, _, _, ch, rfl, hc', hs, fun m => by cases e <;> simp [causeOf, Report.legal], by simp⟩
    · next n hn =>
      rcases runType_eq_next h with ⟨-, ⟨ht, rfl⟩ | ⟨d, ht, rfl⟩⟩
      · exact ⟨c, text, f, _, _, _, _, _, ch, rfl, hc', hs, fun m => by simp [Report.legal, ht], by simp⟩
      · rcases dispatchTo_cases d (BitVec.ofNat 6 n) ch (withSlot text f { s with ctx := c }) with e | e | e <;>
          exact ⟨c, text, f, _, _, _, _, _, ch, e, hc', hs, fun m => by simp [Report.legal, ht], by simp⟩
  rcases loadSlot_eq_next hr with ⟨rfl, rfl, rfl⟩ | ⟨-, -, rfl⟩ | ⟨hl, rfl⟩
  · exact go [] 0 (.inl ⟨rfl, rfl⟩) rfl
  · cases h
    exact ⟨c, [], 0, _, _, _, _, _, ch, rfl, hc', .inl ⟨rfl, rfl⟩, fun m => by simp [causeOf, Report.legal], by simp⟩
  · exact go text f (.inr hl) rfl

/-- A stored context. -/
theorem parsed_stored {k ch acc : Bytes} {n : Nat} {s t : State}
    (hn : n = 2 ∨ ∃ e, ctxGet k s.ctx = some e ∧ n = e.next + 1)
    (h : (andThen (storeContext k n acc s) fun s' => .next (incomplete ch s')) = .next t) : Parsed k s t := by
  obtain ⟨a, ha, h⟩ := andThen_eq_next h
  cases h
  rw [storeContext_eq_next ha]
  exact ⟨ctxPut k ⟨n, acc⟩ s.ctx, [], 0, _, _, _, _, _, ch, rfl, .inr (.inr ⟨n, acc, rfl, hn⟩), .inl ⟨rfl, rfl⟩,
    fun _ => trivial, by simp⟩

/-- The two Sequence failures. -/
theorem parsed_sequence {k : Bytes} {s : State} {ch : Bytes} {c : Ctx} (hc : c = s.ctx ∨ c = ctxDel k s.ctx) :
    Parsed k s (fail .invalid .sequence ch { s with ctx := c }) ∧
    Parsed k s (fail .unsupported .sequence ch { s with ctx := c }) :=
  ⟨parsed_fail hc (fun _ => trivial) (by simp), parsed_fail hc (fun _ => trivial) (by simp)⟩

theorem parsed_single {x : Fragment} {s t : State} (h : execSentSingle x s = .next t) : Parsed x.seqId s t := by
  have h := (whenReady_eq_next h).2
  split at h
  · cases h; exact (parsed_sequence (.inl rfl)).1
  · exact parsed_decodePayload (.inl rfl) h

theorem parsed_first {x : Fragment} {s t : State} (h : execSentFirst x s = .next t) : Parsed x.seqId s t := by
  have h := (whenReady_eq_next h).2
  split at h
  · cases h; exact (parsed_sequence (.inr rfl)).2
  · split at h
    · cases h; exact (parsed_sequence (.inr rfl)).1
    · exact parsed_stored (.inl rfl) h

theorem parsed_middle {x : Fragment} {s t : State} (h : execSentMiddle x s = .next t) : Parsed x.seqId s t := by
  have h := (whenReady_eq_next h).2
  split at h
  · cases h; exact (parsed_sequence (.inr rfl)).2
  · split at h
    · cases h; exact (parsed_sequence (.inl rfl)).1
    · next e he =>
      split at h
      · cases h; exact (parsed_sequence (.inr rfl)).1
      · next hn => exact parsed_stored (.inr ⟨e, he, by omega⟩) h

theorem parsed_final {x : Fragment} {s t : State} (h : execSentFinal x s = .next t) : Parsed x.seqId s t := by
  have h := (whenReady_eq_next h).2
  split at h
  · cases h; exact (parsed_sequence (.inl rfl)).1
  · split at h
    · cases h; exact (parsed_sequence (.inr rfl)).1
    · exact parsed_decodePayload (.inr rfl) h

theorem parsed_badseq {x : Fragment} {s t : State} (h : execSentBadseq x s = .next t) : Parsed x.seqId s t := by
  cases (whenReady_eq_next h).2
  exact (parsed_sequence (.inr rfl)).1

/-- What a sentence can do. -/
theorem parsed_runClass {x : Fragment} {s t : State} (h : runClass x s = .next t) : Parsed x.seqId s t := by
  simp only [runClass] at h
  split at h
  · exact parsed_single h
  · exact parsed_first h
  · exact parsed_middle h
  · exact parsed_final h
  · exact parsed_badseq h

/-- What a parse can do: it names the context of its field 4; without a field 4 it keeps them all. -/
theorem parsed_parseFields {sumOk : Bool} {F : List Bytes} {s t : State} (h : parseFields sumOk F s = .next t) :
    (∃ k, F[3]? = some k ∧ Parsed k s t) ∨ t = fail .invalid .structural [] s := by
  simp only [parseFields] at h
  split at h
  · next tag cnt idx k ch a f7 =>
    refine .inl ⟨k, rfl, ?_⟩
    split at h
    · cases h; exact parsed_fail (.inl rfl) (fun _ => trivial) (fun _ => rfl)
    · obtain ⟨s', hs', h⟩ := andThen_eq_next h
      cases (whenReady_eq_next hs').2
      split at h
      · simp only [runFields] at h
        split at h
        · cases h; exact parsed_fail (.inl rfl) (fun _ => trivial) (fun _ => rfl)
        · next x hx =>
          have hk : x.seqId = k := by
            simp only [convertFields] at hx
            split at hx
            · cases hx; rfl
            · cases hx
          exact hk ▸ parsed_runClass h
      · cases h; exact parsed_fail (.inl rfl) (fun _ => trivial) (fun _ => rfl)
  · cases h; exact .inr rfl

/-- What `SP.PARSE` can do. -/
theorem execSpParse_eq_next {opt : Option Bool} {S : Bytes} {s t : State} (h : execSpParse opt S s = .next t) :
    s.initialised = true ∧ ∃ sumOk, parseFields sumOk (split S) s = .next t := by
  obtain ⟨hi, h⟩ := whenReady_eq_next h
  split at h
  · exact ⟨hi, _, h⟩
  · cases h

/-- What a codec operation can do: answer, raise, or load the slot and answer. -/
theorem execBcLoad_eq_next {fill : Nat} {text : Bytes} {s t : State} (h : execBcLoad fill text s = .next t) :
    (t = raise .malformedPayload s) ∨
    (∃ text' fill', ((text' = [] ∧ fill' = 0) ∨ fill' < 6 * text'.length) ∧
      t = answer .done (withSlot text' fill' s)) := by
  obtain ⟨r, hr, h⟩ := andThen_eq_next (whenReady_eq_next h).2
  rcases loadSlot_eq_next hr with ⟨-, -, rfl⟩ | ⟨-, -, rfl⟩ | ⟨hl, rfl⟩ <;> cases h
  · exact .inr ⟨[], 0, .inl ⟨rfl, rfl⟩, rfl⟩
  · exact .inl rfl
  · exact .inr ⟨text, fill, .inr hl, rfl⟩

/-- Everything an instruction can do when it goes on, one case for each kind of effect. -/
inductive Act (i : Instr) (s t : State) : Prop
  /-- `SP.INIT` -/
  | init (c : Bool) (hi : i = .spInit c)
      (ht : t = { s with initialised := true, chkDefault := c, ctx := [], text := [], fill := 0, result := none,
                         ret := .none })
  /-- a parse with a field 4, or a sentence -/
  | parsed (k : Bytes) (hk : keyOf i = some k) (h : Parsed k s t)
  /-- a parse of a field list of another length than seven -/
  | short (hp : (∃ opt S, i = .spParse opt S) ∨ (∃ L, i = .spParsef L)) (ht : t = fail .invalid .structural [] s)
  /-- a load that succeeds -/
  | load (hi : isCodec i = true) (text : Bytes) (fill : Nat)
      (hs : (text = [] ∧ fill = 0) ∨ fill < 6 * text.length) (ht : t = answer .done (withSlot text fill s))
  /-- a read that succeeds -/
  | ans (hi : isCodec i = true) (v : CodecValue) (ht : t = answer v s)
  /-- a codec operation that raises -/
  | rse (hi : isCodec i = true) (e : CodecExc) (ht : t = raise e s)
  /-- the tag row -/
  | tag (own : Bool) (hi : i = .tagAivdmAivdo own) (ht : t = s)
  /-- a dispatch case without a decoder -/
  | unsup (ty : Sym) (ch : Bytes) (hi : i = dispInstr ty ch) (hd : dispatchTable ty = none)
      (ht : t = unsupportedType ty ch s)
  /-- a dispatch case with a decoder -/
  | sup (ty : Sym) (ch : Bytes) (d : Decoder) (hi : i = dispInstr ty ch) (hd : dispatchTable ty = some d)
      (ht : t = dispatchTo d ty ch s)

/-- A dispatch row is no codec operation, no parse, no `SP.INIT`, and names no context. -/
theorem dispInstr_kind (ty : Sym) (ch : Bytes) :
    isCodec (dispInstr ty ch) = false ∧ keyOf (dispInstr ty ch) = none ∧ (∀ c, dispInstr ty ch ≠ .spInit c) ∧
      (∀ o S, dispInstr ty ch ≠ .spParse o S) ∧ ∀ L, dispInstr ty ch ≠ .spParsef L := by
  obtain ⟨⟨n, hn⟩⟩ := ty
  have hn : n < 64 := hn
  interval_cases n <;> exact ⟨rfl, rfl, nofun, nofun, nofun⟩

/-- A dispatch row runs step 7's case of its type. -/
theorem act_disp {ty : Sym} {ch : Bytes} {s t : State} (h : exec (dispInstr ty ch) s = .next t) : Act (dispInstr ty ch) s t := by
  have e : runType ty ch s = exec (dispInstr ty ch) s := by
    obtain ⟨⟨n, hn⟩⟩ := ty
    have hn : n < 64 := hn
    interval_cases n <;> rfl
  rw [← e] at h
  rcases runType_eq_next h with ⟨-, ⟨hd, ht⟩ | ⟨d, hd, ht⟩⟩
  · exact .unsup ty ch rfl hd ht
  · exact .sup ty ch d rfl hd ht

/-- What any instruction that goes on can do. -/
theorem act {i : Instr} {s t : State} (h : exec i s = .next t) : Act i s t := by
  cases i with
  | spInit c => cases h; exact .init c rfl rfl
  | spParse o S =>
    obtain ⟨_, _, h⟩ := execSpParse_eq_next h
    rcases parsed_parseFields h with ⟨k, hk, hp⟩ | h
    · exact .parsed k hk hp
    · exact .short (.inl ⟨_, _, rfl⟩) h
  | spParsef L =>
    rcases parsed_parseFields (whenReady_eq_next h).2 with ⟨k, hk, hp⟩ | h
    · exact .parsed k hk hp
    · exact .short (.inr ⟨_, rfl⟩) h
  | bcLoad f tx =>
    rcases execBcLoad_eq_next h with h | ⟨a, b, c, d⟩
    · exact .rse rfl _ h
    · exact .load rfl a b c d
  | bcLen => cases (whenReady_eq_next h).2; exact .ans rfl _ rfl
  | bcRdu a b =>
    rcases reply_eq_next (whenReady_eq_next h).2 with ⟨v, _, h⟩ | ⟨e, _, h⟩
    · exact .ans rfl _ h
    · exact .rse rfl _ h
  | bcRdi a b =>
    rcases reply_eq_next (whenReady_eq_next h).2 with ⟨v, _, h⟩ | ⟨e, _, h⟩
    · exact .ans rfl _ h
    · exact .rse rfl _ h
  | bcRds a b =>
    rcases reply_eq_next (whenReady_eq_next h).2 with ⟨v, _, h⟩ | ⟨e, _, h⟩
    · exact .ans rfl _ h
    · exact .rse rfl _ h
  | bcRdb a b =>
    rcases reply_eq_next (whenReady_eq_next h).2 with ⟨v, _, h⟩ | ⟨e, _, h⟩
    · exact .ans rfl _ h
    · exact .rse rfl _ h
  | cmdReserved3 r b => cases h
  | cmdReserved4 r b => cases h
  | cmdReserved5 r b => cases h
  | cmdReserved6 r b => cases h
  | cmdReserved7 r b => cases h
  | cmdReservedE r b => cases h
  | cmdReservedF r b => cases h
  | sentSingle x => exact .parsed _ rfl (parsed_single h)
  | sentFirst x => exact .parsed _ rfl (parsed_first h)
  | sentMiddle x => exact .parsed _ rfl (parsed_middle h)
  | sentFinal x => exact .parsed _ rfl (parsed_final h)
  | sentBadseq x => exact .parsed _ rfl (parsed_badseq h)
  | tagAivdmAivdo own => cases (whenReady_eq_next h).2; exact .tag own rfl rfl
  | dispT0 ch => exact act_disp (ty := 0) h
  | dispT1 ch => exact act_disp (ty := 1) h
  | dispT2 ch => exact act_disp (ty := 2) h
  | dispT3 ch => exact act_disp (ty := 3) h
  | dispT4 ch => exact act_disp (ty := 4) h
  | dispT5 ch => exact act_disp (ty := 5) h
  | dispT6 ch => exact act_disp (ty := 6) h
  | dispT7 ch => exact act_disp (ty := 7) h
  | dispT8 ch => exact act_disp (ty := 8) h
  | dispT9 ch => exact act_disp (ty := 9) h
  | dispT10 ch => exact act_disp (ty := 10) h
  | dispT11 ch => exact act_disp (ty := 11) h
  | dispT12 ch => exact act_disp (ty := 12) h
  | dispT13 ch => exact act_disp (ty := 13) h
  | dispT14 ch => exact act_disp (ty := 14) h
  | dispT15 ch => exact act_disp (ty := 15) h
  | dispT16 ch => exact act_disp (ty := 16) h
  | dispT17 ch => exact act_disp (ty := 17) h
  | dispT18 ch => exact act_disp (ty := 18) h
  | dispT19 ch => exact act_disp (ty := 19) h
  | dispT20 ch => exact act_disp (ty := 20) h
  | dispT21 ch => exact act_disp (ty := 21) h
  | dispT22 ch => exact act_disp (ty := 22) h
  | dispT23 ch => exact act_disp (ty := 23) h
  | dispT24 ch => exact act_disp (ty := 24) h
  | dispT25 ch => exact act_disp (ty := 25) h
  | dispT26 ch => exact act_disp (ty := 26) h
  | dispT27 ch => exact act_disp (ty := 27) h
  | dispT28 ch => exact act_disp (ty := 28) h
  | dispT29 ch => exact act_disp (ty := 29) h
  | dispT30 ch => exact act_disp (ty := 30) h
  | dispT31 ch => exact act_disp (ty := 31) h
  | dispT32 ch => exact act_disp (ty := 32) h
  | dispT33 ch => exact act_disp (ty := 33) h
  | dispT34 ch => exact act_disp (ty := 34) h
  | dispT35 ch => exact act_disp (ty := 35) h
  | dispT36 ch => exact act_disp (ty := 36) h
  | dispT37 ch => exact act_disp (ty := 37) h
  | dispT38 ch => exact act_disp (ty := 38) h
  | dispT39 ch => exact act_disp (ty := 39) h
  | dispT40 ch => exact act_disp (ty := 40) h
  | dispT41 ch => exact act_disp (ty := 41) h
  | dispT42 ch => exact act_disp (ty := 42) h
  | dispT43 ch => exact act_disp (ty := 43) h
  | dispT44 ch => exact act_disp (ty := 44) h
  | dispT45 ch => exact act_disp (ty := 45) h
  | dispT46 ch => exact act_disp (ty := 46) h
  | dispT47 ch => exact act_disp (ty := 47) h
  | dispT48 ch => exact act_disp (ty := 48) h
  | dispT49 ch => exact act_disp (ty := 49) h
  | dispT50 ch => exact act_disp (ty := 50) h
  | dispT51 ch => exact act_disp (ty := 51) h
  | dispT52 ch => exact act_disp (ty := 52) h
  | dispT53 ch => exact act_disp (ty := 53) h
  | dispT54 ch => exact act_disp (ty := 54) h
  | dispT55 ch => exact act_disp (ty := 55) h
  | dispT56 ch => exact act_disp (ty := 56) h
  | dispT57 ch => exact act_disp (ty := 57) h
  | dispT58 ch => exact act_disp (ty := 58) h
  | dispT59 ch => exact act_disp (ty := 59) h
  | dispT60 ch => exact act_disp (ty := 60) h
  | dispT61 ch => exact act_disp (ty := 61) h
  | dispT62 ch => exact act_disp (ty := 62) h
  | dispT63 ch => exact act_disp (ty := 63) h

end Sys2Proof.Machine
end

