-- ==== Sys2Proof/Tests/Slice0.lean ====
section
/-! SUPPORT. The author's own tests. Expected values come from spec/95_test_vectors.md (the section is named in each
comment) or are worked out by hand from the encoding tables of spec/30_encoding.md. The witnesses at the end show, for
every statement that has hypotheses, concrete values that meet them together. -/

namespace Sys2Proof.Tests

open Sys2Proof Sys2Proof.Machine

set_option Elab.async false

/-! ### Helpers -/

/-- The bytes of an ASCII string. -/
def b (s : String) : Bytes := s.toList.map fun c => BitVec.ofNat 8 c.toNat

/-- The source's payload `P` (95, Conventions). -/
def payload : Bytes := b "14`c;d002grD>PH50hr7RVE000SG"

/-- After `SP.INIT chk=1` (95, Conventions). -/
def fresh : State := { State.reset with chkDefault := true }

/-- A fresh state with a slot. -/
def withText (t : String) (f : Nat) : State := { fresh with text := b t, fill := f }

/-- A fresh state with one context. -/
def withCtx (k : String) (n : Nat) (acc : String) : State := { fresh with ctx := [(b k, ⟨n, b acc⟩)] }

/-- What a step shows: the result word and channel, the slot, the context map. -/
structure Seen where
  word : Option (BitVec 32)
  channel : Option Bytes
  text : Bytes
  fill : Nat
  ctx : Ctx
  deriving DecidableEq, Repr

def seen : Outcome → Option Seen
  | .next t => some ⟨t.resultWord, t.result.map (·.channel), t.text, t.fill, t.ctx⟩
  | .fault _ => none
  | .refused _ => none

/-- What a codec operation returned. -/
def returned : Outcome → Option Answer
  | .next t => some t.ret
  | .fault _ => none
  | .refused _ => none

/-- The reason of a refusal. -/
def why : Outcome → Option Refusal
  | .next _ => none
  | .fault _ => none
  | .refused r => some r

/-- One step on what is presented. -/
def run (s : State) (x : Issue) : Outcome := step (s.present x)

/-- `SP.PARSE` without an option (30 R92). -/
def parse (s : State) (S : String) : Outcome := run s (.command 0x10000000 (.text (b S)))

/-- The decoded instruction, if any. -/
def read (x : Issue) : Option Instr :=
  match decode x with
  | .ok i => some i
  | .error _ => none

/-- Why nothing is decoded. -/
def unread (x : Issue) : Option DecodeError :=
  match decode x with
  | .ok _ => none
  | .error e => some e

/-! ### WellFormed: an ill-formed term for each check -/

/-- A fragment with given numbers and otherwise plain fields. -/
def frag (c i : Nat) : Fragment := ⟨false, c, i, b "3", b "B", b "P", 0, some (b "46")⟩

theorem test_wf_bcLoad_fill : (Instr.bcLoad 65536 []).wf = false ∧ (Instr.bcLoad 65535 []).wf = true := by decide

theorem test_wf_read_start : (Instr.bcRdu 65536 1).wf = false ∧ (Instr.bcRdi 65536 1).wf = false ∧
    (Instr.bcRds 65536 6).wf = false ∧ (Instr.bcRdb 65536 1).wf = false := by decide

theorem test_wf_read_length : (Instr.bcRdu 0 4096).wf = false ∧ (Instr.bcRdi 0 4096).wf = false ∧
    (Instr.bcRds 0 4096).wf = false ∧ (Instr.bcRdb 0 4096).wf = false ∧ (Instr.bcRdb 65535 4095).wf = true := by decide

theorem test_wf_class_numbers :
    (Instr.sentSingle (frag 2 1)).wf = false ∧ (Instr.sentFirst (frag 1 1)).wf = false ∧
    (Instr.sentFirst (frag 2 2)).wf = false ∧ (Instr.sentMiddle (frag 3 1)).wf = false ∧
    (Instr.sentMiddle (frag 3 3)).wf = false ∧ (Instr.sentFinal (frag 3 2)).wf = false ∧
    (Instr.sentFinal (frag 1 1)).wf = false ∧ (Instr.sentBadseq (frag 1 0)).wf = false ∧
    (Instr.sentBadseq (frag 2 2)).wf = false := by decide

theorem test_wf_comma :
    (Instr.sentSingle { frag 1 1 with seqId := b "3,4" }).wf = false ∧
    (Instr.sentSingle { frag 1 1 with channel := b "," }).wf = false ∧
    (Instr.sentSingle { frag 1 1 with armoured := b "P,P" }).wf = false ∧
    (Instr.sentSingle { frag 1 1 with sumText := some (b "4,6") }).wf = false ∧
    (Instr.sentSingle (frag 1 1)).wf = true := by decide

/-! ### Decoding: words written out from the encodings -/

/-- `SP.INIT` (30 R91): `0000 0000...0 c`. -/
theorem test_decode_spInit : read (.command 0x00000001 .none) = some (.spInit true) ∧
    read (.command 0x00000000 .none) = some (.spInit false) ∧
    unread (.command 0x00000002 .none) = some .reservedBits := by decide

/-- `SP.PARSE` (30 R92): `cmd[1]` present, `cmd[0]` the value; the pattern 01 is reserved. -/
theorem test_decode_spParse : read (.command 0x10000000 (.text (b "x"))) = some (.spParse none (b "x")) ∧
    read (.command 0x10000002 (.text [])) = some (.spParse (some false) []) ∧
    read (.command 0x10000003 (.text [])) = some (.spParse (some true) []) ∧
    unread (.command 0x10000001 (.text [])) = some .reservedOption := by decide

/-- `SP.PARSEF` (30 R91), and a bulk operand of the wrong shape. -/
theorem test_decode_spParsef : read (.command 0x20000000 (.fields [b "x", []])) = some (.spParsef [b "x", []]) ∧
    unread (.command 0x20000000 (.text [])) = some .bulkMismatch ∧
    unread (.command 0x20000100 (.fields [])) = some .reservedBits := by decide

/-- `BC.LOAD "85<<?0", 36` shape of 95 section 5: fill in `cmd[15:0]`. -/
theorem test_decode_bcLoad : read (.command 0x80000024 (.text (b "P"))) = some (.bcLoad 36 (b "P")) ∧
    unread (.command 0x80010000 (.text [])) = some .reservedBits := by decide

theorem test_decode_bcLen : read (.command 0x90000000 .none) = some .bcLen ∧
    unread (.command 0x90000001 .none) = some .reservedBits := by decide

/-- The reads (30 R90): operation code, twelve bits of length, sixteen bits of start. -/
theorem test_decode_reads :
    read (.command 0b1010_000000011110_0000000000001000 .none) = some (.bcRdu 8 30) ∧
    read (.command 0b1011_000000011100_0000000000111101 .none) = some (.bcRdi 61 28) ∧
    read (.command 0b1100_000001111000_0000000000000000 .none) = some (.bcRds 0 120) ∧
    read (.command 0b1101_111111111111_1111111111111111 .none) = some (.bcRdb 65535 4095) := by decide

/-- The seven reserved codes (30 R94). -/
theorem test_decode_reserved :
    read (.command 0x30000005 .none) = some (.cmdReserved3 5 .none) ∧
    read (.command 0x40000005 .none) = some (.cmdReserved4 5 .none) ∧
    read (.command 0x50000005 .none) = some (.cmdReserved5 5 .none) ∧
    read (.command 0x60000005 .none) = some (.cmdReserved6 5 .none) ∧
    read (.command 0x7FFFFFFF .none) = some (.cmdReserved7 0xFFFFFFF .none) ∧
    read (.command 0xE0000005 .none) = some (.cmdReservedE 5 .none) ∧
    read (.command 0xF0000005 (.text [])) = some (.cmdReservedF 5 (.text [])) := by decide

/-- The tag row (30 R73): mask 0xFFFFFFFFFFFD, match 0x21414956444D. -/
theorem test_decode_tag : read (.tag 0x21414956444D) = some (.tagAivdmAivdo false) ∧
    read (.tag 0x21414956444F) = some (.tagAivdmAivdo true) ∧
    unread (.tag 0x21414956444E) = some .unsupportedTag := by decide

/-- The five classes (30 R78), on sentences of 95 sections 3 and 4. -/
theorem test_decode_sentences :
    read (.sentence (b "!AIVDM,1,1,3,B,P,0*46")) = some (.sentSingle (frag 1 1)) ∧
    read (.sentence (b "!AIVDM,2,1,3,B,P,0*46")) = some (.sentFirst (frag 2 1)) ∧
    read (.sentence (b "!AIVDM,3,2,3,B,P,0*46")) = some (.sentMiddle (frag 3 2)) ∧
    read (.sentence (b "!AIVDM,2,2,3,B,P,0*46")) = some (.sentFinal (frag 2 2)) ∧
    read (.sentence (b "!AIVDM,2,3,3,B,P,0*46")) = some (.sentBadseq (frag 2 3)) := by decide +kernel

/-- Leading zeros, `!AIVDO`, no `*` (30 R73 to R75), and the three ways a sentence has no meaning. -/
theorem test_decode_sentence_forms :
    read (.sentence (b "!AIVDO,01,001,,,,00")) = some (.sentSingle ⟨true, 1, 1, [], [], [], 0, none⟩) ∧
    unread (.sentence (b "!AIVDM,1,1,3,B,P")) = some .fieldCount ∧
    unread (.sentence (b "!BSVDM,1,1,3,B,P,0*46")) = some .unsupportedTag ∧
    unread (.sentence (b "!AIVDM,+1,1,3,B,P,0*46")) = some .notDecimal := by decide +kernel

/-- The type discriminator (30 R85, 44 R193, R194): 64 rows. -/
theorem test_decode_types :
    ([.dispT0, .dispT1, .dispT2, .dispT3, .dispT4, .dispT5, .dispT6, .dispT7, .dispT8, .dispT9, .dispT10, .dispT11,
      .dispT12, .dispT13, .dispT14, .dispT15] : List (Bytes → Instr)).map (· []) =
        (List.range 16).filterMap fun n => read (.typeField (BitVec.ofNat 6 n) []) := by decide

theorem test_decode_types_from_16 :
    ([.dispT16, .dispT17, .dispT18, .dispT19, .dispT20, .dispT21, .dispT22, .dispT23, .dispT24, .dispT25, .dispT26,
      .dispT27, .dispT28, .dispT29, .dispT30, .dispT31] : List (Bytes → Instr)).map (· []) =
        (List.range 16).filterMap fun n => read (.typeField (BitVec.ofNat 6 (16 + n)) []) := by decide

theorem test_decode_types_from_32 :
    ([.dispT32, .dispT33, .dispT34, .dispT35, .dispT36, .dispT37, .dispT38, .dispT39, .dispT40, .dispT41, .dispT42,
      .dispT43, .dispT44, .dispT45, .dispT46, .dispT47] : List (Bytes → Instr)).map (· []) =
        (List.range 16).filterMap fun n => read (.typeField (BitVec.ofNat 6 (32 + n)) []) := by decide

theorem test_decode_types_from_48 :
    ([.dispT48, .dispT49, .dispT50, .dispT51, .dispT52, .dispT53, .dispT54, .dispT55, .dispT56, .dispT57, .dispT58,
      .dispT59, .dispT60, .dispT61, .dispT62, .dispT63] : List (Bytes → Instr)).map (· []) =
        (List.range 16).filterMap fun n => read (.typeField (BitVec.ofNat 6 (48 + n)) []) := by decide

/-- Opcode-table words: a command, a tag, a type, a sentence (`!AIVDM,1,1,,A,,0`, its first byte lowest). -/
theorem test_decodeTableWord :
    decodeTableWord 32 0xA01E0008 = some (.bcRdu 8 30) ∧
    decodeTableWord 48 0x21414956444F = some (.tagAivdmAivdo true) ∧
    decodeTableWord 6 27 = some (.dispT27 []) ∧ decodeTableWord 8 63 = some (.dispT63 []) ∧
    decodeTableWord 32 0x10000001 = none ∧ decodeTableWord 8 64 = none ∧
    decodeTableWord 128 0x302C2C412C2C312C312C4D4456494121 =
      some (.sentSingle ⟨false, 1, 1, [], b "A", [], 0, none⟩) := by decide +kernel

/-- Each of them is what the next step runs. -/
theorem test_withFetchWord :
    returned (step (State.reset.withFetchWord 32 0x90000000)) = some (.ok (.nat 0)) ∧
    seen (step (State.reset.withFetchWord 48 0x21414956444D)) = some ⟨none, none, [], 0, []⟩ ∧
    seen (step (State.reset.withFetchWord 6 6)) = some ⟨some 0xD17, some [], [], 0, []⟩ := by decide +kernel

/-! ### The commands, one step each -/

/-- `SP.INIT` is the reset (70 R240), from any state: the one before the first `SP.INIT`, too. -/
theorem test_spInit_is_reset : exec (.spInit false) State.powerOn = .next State.reset := rfl

theorem test_spInit_clears :
    seen (run (withCtx "3" 2 "xx") (.command 0x00000001 .none)) = some ⟨none, none, [], 0, []⟩ := by decide

/-- 95 section 3.2: the source's sentence, and its checksum's last digit altered. -/
theorem test_spParse_checksum :
    seen (parse fresh "!AIVDM,1,1,,B,14`c;d002grD>PH50hr7RVE000SG,0*74") =
      some ⟨some 0x8300, some (b "B"), payload, 0, []⟩ ∧
    seen (parse fresh "!AIVDM,1,1,,B,14`c;d002grD>PH50hr7RVE000SG,0*75") =
      some ⟨some 0xA, some (b "B"), [], 0, []⟩ := by decide +kernel

/-- 95 section 3.1: the field count comes before the tag, and the tag decides `UNSUPPORTED`. -/
theorem test_spParse_structure :
    seen (parse fresh "$GPGGA,123519,4807.038,N,01131.000,E,1,08,0.9,545.4,M,46.9,M,,*47") =
      some ⟨some 6, some [], [], 0, []⟩ ∧
    seen (parse fresh "$GPGLL,1,1,,B,x,0*00") = some ⟨some 7, some (b "B"), [], 0, []⟩ := by decide +kernel

/-- 95 section 3.6: the checksum text is never looked at; six fields; an empty fill text. -/
theorem test_spParsef :
    seen (run fresh (.command 0x20000000 (.fields [b "!AIVDM", b "1", b "1", [], b "B", payload, b "0*FF"]))) =
      some ⟨some 0x8300, some (b "B"), payload, 0, []⟩ ∧
    seen (run fresh (.command 0x20000000 (.fields [b "!AIVDM", b "1", b "1", [], b "B", payload]))) =
      some ⟨some 6, some [], [], 0, []⟩ ∧
    seen (run fresh (.command 0x20000000 (.fields [b "!AIVDM", b "1", b "1", [], b "B", payload, b "*74"]))) =
      some ⟨some 6, some (b "B"), [], 0, []⟩ := by decide +kernel

/-- 95 section 2.2: a malformed load keeps the slot; the zero-length codec. -/
theorem test_bcLoad :
    returned (run (withText "00" 0) (.command 0x80000006 (.text (b "0")))) = some (.raised .malformedPayload) ∧
    seen (run (withText "00" 0) (.command 0x80000006 (.text (b "0")))) = some ⟨none, none, b "00", 0, []⟩ ∧
    seen (run (withText "00" 0) (.command 0x80000005 (.text (b "0")))) = some ⟨none, none, b "0", 5, []⟩ ∧
    returned (run fresh (.command 0x80000001 (.text []))) = some (.raised .malformedPayload) ∧
    returned (run fresh (.command 0x80000000 (.text []))) = some (.ok .done) := by decide +kernel

/-- 95 section 2.2. -/
theorem test_bcLen : returned (run { fresh with text := payload, fill := 2 } (.command 0x90000000 .none)) =
    some (.ok (.nat 166)) := by decide +kernel

/-- 95 section 2.3, 2.5: a read of 30 bits; 31 bits from the last bit of a symbol; InvalidSymbol. -/
theorem test_bcRdu :
    rdu payload 0 8 30 = .ok 311086000 ∧ rdu payload 0 5 31 = .ok 1151513324 ∧
    rdu (b "8X<") 0 5 2 = .error (.invalidSymbol 1) ∧ rdu (b "8X<") 0 6 13 = .error .rangeError ∧
    rdu payload 0 9999 0 = .ok 0 ∧ rdu payload 0 200 32 = .error .rangeError := by decide +kernel

theorem test_bcRdu_step :
    returned (run { fresh with text := payload } (.command 0xA01E0008 .none)) = some (.ok (.nat 311086000)) := by
  decide +kernel

/-- 95 section 2.3: a negative longitude and a single set bit. -/
theorem test_bcRdi : rdi payload 0 61 28 = .ok (-47680500) ∧ rdi payload 0 60 1 = .ok (-1) ∧
    rdi payload 0 137 31 = .ok (-1073739561) ∧ rdi (b "8X<") 0 6 6 = .error (.invalidSymbol 1) := by decide +kernel

theorem test_bcRdi_step :
    returned (run { fresh with text := payload } (.command 0xB01C003D .none)) = some (.ok (.int (-47680500))) := by
  decide +kernel

/-- 95 section 2.6: aligned, unaligned, and the length test first. -/
theorem test_bcRds : rds (b "85<<?0") 0 0 36 = .ok (b "HELLO@") ∧ rds (b "85<<?0") 0 3 30 = .ok (b "@)!!8") ∧
    rds (b "85<<?0") 0 0 0 = .error .rangeError ∧ rds (b "hijkPw") 0 0 36 = .ok (b "0123 ?") := by decide +kernel

theorem test_bcRds_step :
    returned (run (withText "85<<?0" 6) (.command 0xC01E0000 .none)) = some (.ok (.string (b "HELLO"))) := by
  decide +kernel

/-- 95 section 2.7: padding, and the span test before the zero length. -/
theorem test_bcRdb : rdb (b "85<<?0") 0 0 36 = .ok [0x20, 0x53, 0x0C, 0x3C, 0x00] ∧
    rdb (b "85<<?0") 0 6 12 = .ok [0x14, 0xC0] ∧ rdb (b "85<<?0") 0 36 0 = .ok [] ∧
    rdb (b "85<<?0") 0 37 0 = .error .rangeError ∧ rdb (b "wwwwww") 0 3 13 = .ok [0xFF, 0xF8] := by decide +kernel

theorem test_bcRdb_step :
    returned (run { fresh with text := payload } (.command 0xD0200008 .none)) =
      some (.ok (.buffer [0x4A, 0x2B, 0x2E, 0xC0])) := by decide +kernel

/-- The reserved commands are refused (30 R94). -/
theorem test_reserved : why (run fresh (.command 0x30000000 .none)) = some (.reservedCommand 3) ∧
    why (run fresh (.command 0xF0000000 .none)) = some (.reservedCommand 15) ∧
    why (run fresh (.command 0x10000001 (.text []))) = some (.undecodable .reservedOption) := by decide +kernel

/-- Before the first `SP.INIT` (70 R241). -/
theorem test_before_init : why (run State.powerOn (.command 0x90000000 .none)) = some .notInitialised := by decide

/-- The pseudo-operations (30 R96), on the source's payload (95 section 1, property 7). -/
theorem test_pseudo_operations :
    returned (exec rdTypeExpansion { fresh with text := payload }) = some (.ok (.nat 1)) ∧
    returned (exec rdRepeatExpansion { fresh with text := payload }) = some (.ok (.nat 0)) ∧
    (rdMmsiExpansion { fresh with text := payload }).map (fun i => returned (exec i { fresh with text := payload })) =
      some (some (.ok (.nat 311086000))) ∧
    rdMmsiExpansion (withText "000000" 0) = none := by decide +kernel

/-- The codec's status numbers (30 R93). -/
theorem test_status : (Answer.ok .done).status = some 0 ∧ (Answer.raised .malformedPayload).status = some 1 ∧
    (Answer.raised .rangeError).status = some 2 ∧ (Answer.raised (.invalidSymbol 9)).status = some 3 := by decide

/-! ### The sentence classes, one step each (95 sections 3.4 and 4) -/

theorem test_sentSingle :
    seen (parse (withCtx "3" 2 "xx") "!AIVDM,1,1,3,B,P,0*46") =
      some ⟨some 0x4117, some (b "B"), b "P", 0, [(b "3", ⟨2, b "xx"⟩)]⟩ ∧
    seen (parse (withCtx "3" 2 "xx") "!AIVDM,1,2,3,B,P,0*45") =
      some ⟨some 0xE, some (b "B"), [], 0, [(b "3", ⟨2, b "xx"⟩)]⟩ := by decide +kernel

theorem test_sentFirst :
    seen (parse fresh "!AIVDM,2,1,3,B,14`c;d002grD>P,0*41") =
      some ⟨some 1, some (b "B"), [], 0, [(b "3", ⟨2, b "14`c;d002grD>P"⟩)]⟩ ∧
    seen (parse (withCtx "3" 2 "xx") "!AIVDM,2,1,3,B,14`c;d002grD>P,0*41") =
      some ⟨some 0xE, some (b "B"), [], 0, []⟩ := by decide +kernel

theorem test_sentFirst_fill :
    seen (parse (withCtx "3" 2 "xx") "!AIVDM,2,1,3,B,14`c;d002grD>P,2*43") =
      some ⟨some 0xF, some (b "B"), [], 0, []⟩ := by decide +kernel

theorem test_sentMiddle :
    seen (parse (withCtx "7" 2 "14`c;d002g") "!AIVDM,3,2,7,A,rD>PH50hr7,0*28") =
      some ⟨some 1, some (b "A"), [], 0, [(b "7", ⟨3, b "14`c;d002grD>PH50hr7"⟩)]⟩ ∧
    seen (parse (withCtx "7" 3 "14`c;d002g") "!AIVDM,3,2,7,A,rD>PH50hr7,0*28") =
      some ⟨some 0xE, some (b "A"), [], 0, []⟩ := by decide +kernel

theorem test_sentMiddle_fill :
    seen (parse (withCtx "3" 2 "x") "!AIVDM,3,2,3,B,14`c;d002grD>P,4*47") =
      some ⟨some 0xF, some (b "B"), [], 0, []⟩ := by decide +kernel

/-- 4.1 and 4.2: the final fragment of the key, and of another key. -/
theorem test_sentFinal :
    seen (parse (withCtx "3" 2 "14`c;d002grD>P") "!AIVDM,2,2,3,B,H50hr7RVE000SG,0*13") =
      some ⟨some 0x8300, some (b "B"), payload, 0, []⟩ ∧
    seen (parse (withCtx "3" 2 "14`c;d002grD>P") "!AIVDM,2,2,4,B,H50hr7RVE000SG,0*14") =
      some ⟨some 0xE, some (b "B"), [], 0, [(b "3", ⟨2, b "14`c;d002grD>P"⟩)]⟩ := by decide +kernel

/-- A large fill on the final fragment removes the context and then fails to load. -/
theorem test_sentFinal_malformed :
    seen (parse (withCtx "3" 2 "14`c;d002grD>P") "!AIVDM,2,2,3,B,,200*14") =
      some ⟨some 0x32, some (b "B"), [], 0, []⟩ := by decide +kernel

/-- `SENT.BADSEQ` removes the key's context and does not look at the fill. -/
theorem test_sentBadseq :
    seen (parse (withCtx "3" 2 "xx") "!AIVDM,2,3,3,B,xx,5*12") = some ⟨some 0xE, some (b "B"), [], 0, []⟩ ∧
    seen (parse fresh "!AIVDM,0,0,3,B,xx,0*16") = some ⟨some 0xE, some (b "B"), [], 0, []⟩ := by decide +kernel

/-- The tag row writes nothing (30 R73). -/
theorem test_tag : exec (.tagAivdmAivdo true) fresh = .next fresh := rfl

/-! ### Step 7 and the dispatch rows (95 section 3.5) -/

/-- The result words of the types, by 30 R85 and R93, on the slot `P` with the default minimum lengths: VALID for
types 1 to 3, 8 and 14 and for the open decoders, TooShort for 5 and 21, UNSUPPORTED for the rest. -/
theorem test_disp_words :
    ((List.range 64).filterMap fun n =>
        (seen (run { fresh with text := payload } (.typeField (BitVec.ofNat 6 n) []))).bind (·.word)) =
      (List.range 64).map fun n =>
        BitVec.ofNat 32 (match n with
          | 1 => 0x8300 | 2 => 0x8500 | 3 => 0x8700 | 4 => 0x18900 | 5 => 0x28B92 | 8 => 0x39100 | 14 => 0x49D00
          | 18 => 0x5A500 | 19 => 0x6A700 | 21 => 0x7AB92 | 24 => 0x8B100 | 27 => 0x9B700
          | _ => 0x117 + 0x200 * n) := by decide +kernel

/-- The dispatch rows leave the slot and the context map. -/
theorem test_disp_frame :
    ((List.range 64).all fun n =>
        (seen (run { withCtx "3" 2 "xx" with text := payload, fill := 1 } (.typeField (BitVec.ofNat 6 n) (b "A")))).map
            (fun v => (v.channel, v.text, v.fill, v.ctx)) ==
          some (some (b "A"), payload, 1, [(b "3", ⟨2, b "xx"⟩)])) = true := by decide +kernel

/-- The failures of step 7, with the slot each leaves. -/
theorem test_step7_failures :
    seen (parse fresh "!AIVDM,1,1,,A,,0*26") = some ⟨some 0x52, some (b "A"), [], 0, []⟩ ∧
    seen (parse fresh "!AIVDM,1,1,,A,1,6*11") = some ⟨some 0x32, some (b "A"), [], 0, []⟩ ∧
    seen (parse fresh "!AIVDM,1,1,,A,1,5*12") = some ⟨some 0x52, some (b "A"), b "1", 5, []⟩ ∧
    seen (parse fresh "!AIVDM,1,1,,A,X4`c,0*49") = some ⟨some 0x72, some (b "A"), b "X4`c", 0, []⟩ := by
  decide +kernel

/-- A failure inside the Message Model (44 R197). -/
theorem test_step7_external :
    seen (parse { fresh with mm := ⟨[], .external (b "no")⟩ } "!AIVDM,1,1,,B,14`c;d002grD>PH50hr7RVE000SG,0*74") =
      some ⟨some 0x83B2, some (b "B"), payload, 0, []⟩ := by decide +kernel

/-! ### Witnesses: values that meet the hypotheses of each statement -/

/-- A state with finite capacities, each equal to what `!AIVDM,1,1,,B,P,0` needs or less. -/
def capped (n : Nat) : State :=
  { fresh with params := { Params.default with sentMax := some n, textMax := some n, ctxCap := some n } }

/-- The same with the context of `withCtx`. -/
def cappedCtx (n : Nat) : State := { capped n with ctx := [(b "3", ⟨2, b "x"⟩)] }

/-- A fragment with a fill and a payload. -/
def fragOf (c i : Nat) (t : String) (f : Nat) : Fragment := { frag c i with armoured := b t, fill := f }

theorem witness_DecodeOfEncode :
    (Instr.bcLoad 65535 payload).wf = true ∧ (Instr.bcRdu 65535 4095).wf = true ∧
    (Instr.bcRdi 65535 4095).wf = true ∧ (Instr.bcRds 65535 4095).wf = true ∧ (Instr.bcRdb 65535 4095).wf = true ∧
    (Instr.sentSingle (frag 1 0)).wf = true ∧ (Instr.sentFirst (frag 2 1)).wf = true ∧
    (Instr.sentMiddle (frag 3 2)).wf = true ∧ (Instr.sentFinal (frag 2 2)).wf = true ∧
    (Instr.sentBadseq (frag 0 7)).wf = true ∧ (Instr.dispT63 (b ",")).wf = true := by decide

theorem witness_DecodedIsWellFormed :
    decode (.command 0x8000FFFF (.text payload)) = .ok (.bcLoad 65535 payload) ∧
    decode (.sentence (b "!AIVDM,2,2,3,B,P,0*46")) = .ok (.sentFinal (frag 2 2)) := by decide +kernel

theorem witness_EncodeOfDecodedWord :
    decode (.command 0xDFFFFFFF .none) = .ok (.bcRdb 65535 4095) ∧
    decode (.tag 0x21414956444F) = .ok (.tagAivdmAivdo true) ∧
    decode (.typeField 63 (b "A")) = .ok (.dispT63 (b "A")) := by decide +kernel

theorem witness_ReservedCommandsAreRefused :
    ReservedCommand 0x30000000 ∧ ReservedCommand 0x7FFFFFFF ∧ ReservedCommand 0xE0000000 ∧
    ReservedCommand 0xFFFFFFFF ∧ ReservedCommand 0x00000002 ∧ ReservedCommand 0x10000004 ∧
    ReservedCommand 0x10000001 ∧ ReservedCommand 0x20000001 ∧ ReservedCommand 0x98000000 ∧
    ReservedCommand 0x80010000 ∧ ¬ReservedCommand 0x8000FFFF ∧
    (fresh.present (.command 0x10000001 (.text []))).input = .command 0x10000001 (.text []) :: [] :=
  ⟨by decide, by decide, by decide, by decide, by decide, by decide, by decide, by decide, by decide, by decide, by decide,
    rfl⟩

theorem witness_TagTest : tagVdo.length = 6 ∧ (b "!AIVDN").length = 6 ∧ fresh.initialised = true := by decide

theorem witness_ArmourCodeAndAlphabet :
    (31 : Sym).toNat ≤ 31 ∧ (alpha 31).toNat = 95 ∧ 32 ≤ (32 : Sym).toNat ∧ (alpha 32).toNat = 32 := by decide

theorem witness_SplitAtCommas :
    ([[], b "P"] : List Bytes) ≠ [] ∧ (∀ f ∈ ([[], b "P"] : List Bytes), (0x2C : Byte) ∉ f) ∧
    decode (.sentence (b "!AIVDM,1,1,3,B,P,0*46")) = .ok (.sentSingle (frag 1 1)) := by decide +kernel

theorem witness_DecimalConversion :
    dec (b "12") = some 12 ∧ 48 ≤ (0x30 : Byte).toNat ∧ (0x39 : Byte).toNat ≤ 57 ∧ dec (b "120") = some 120 ∧
    dec (b "012") = some 12 ∧ dec [] = none ∧ dec (b "1/") = none ∧ dec (b "1:") = none := by decide

theorem witness_ChecksumRule :
    (0x2A : Byte) ∉ b "!AIVDM,1,1,,A,P,0" ∧
    checksumMatches (b "!AIVDM,1,1,,A,P,0" ++ 0x2A :: b "76") = true ∧
    checksumMatches (b "!AIVDM,1,1,,A,P,0") = false := by decide +kernel

theorem witness_ReadBitsArePayloadBits :
    SpanLegal payload 137 31 ∧ FirstIllegal (b "8X<") 5 2 1 ∧ 1 < (b "8X<").length ∧ (b "8X<")[17 / 6]? = some 0x3C ∧
    dearmour 0x3C = some 12 := by decide +kernel

/-- One witness for each clause, at the ends of the ranges. -/
theorem witness_ReadUnsigned :
    (withText "wwwwww" 5).initialised = true ∧
    (31 ≤ 31 ∧ 6 * (b "wwwwww").length - 5 < 1 + 31) ∧
    (0 + 31 ≤ 6 * (b "wwwwww").length - 5 ∧ SpanLegal (b "wwwwww") 0 31) ∧
    (1 + 30 ≤ 6 * (b "wwwwww").length - 5 ∧ SpanLegal (b "wwwwww") 1 30) ∧
    (6 + 1 ≤ 6 * (b "8X<").length - 11 ∧ FirstIllegal (b "8X<") 6 1 1) ∧ 31 < 32 := by decide +kernel

theorem witness_ReadSigned :
    (withText "P00000" 5).initialised = true ∧
    (0 + 31 ≤ 6 * (b "P00000").length - 5 ∧ SpanLegal (b "P00000") 0 31 ∧ payloadBit (b "P00000") 0 = true) ∧
    (1 + 1 ≤ 6 * (b "P00000").length - 5 ∧ SpanLegal (b "P00000") 1 1 ∧ payloadBit (b "P00000") 1 = false) ∧
    6 * (b "P00000").length - 5 < 31 + 1 ∧
    (6 + 1 ≤ 6 * (b "8X<").length ∧ FirstIllegal (b "8X<") 6 1 1) := by decide +kernel

theorem witness_IntegerReadersAgree :
    rdu (b "P") 0 0 6 = .ok 32 ∧ rdi (b "P") 0 0 6 = .ok (-32) ∧ rdu (b "O") 0 0 6 = .ok 31 ∧
    rdi (b "O") 0 0 6 = .ok 31 ∧ (31 : Nat) < 2 ^ (6 - 1) := by decide +kernel

theorem witness_ReadBounds :
    rdu (b "wwwwww") 0 0 31 = .ok (2 ^ 31 - 1) ∧ rdi (b "P00000") 0 0 31 = .ok (-(2 ^ 30)) ∧
    rds (b "hijkPw") 0 0 36 = .ok (b "0123 ?") := by decide +kernel

theorem witness_ReadsSplitAndJoin :
    14 + 16 ≤ 31 ∧ rdu payload 0 8 14 = .ok 4746 ∧ rdu payload 0 (8 + 14) 16 = .ok 52144 := by decide +kernel

theorem witness_ShiftingAlgorithmRefines :
    5 + 31 ≤ bitLen payload 0 ∧
    (match shiftLoop payload 31 31 ((33 : Sym).toNat &&& (2 ^ (6 - 5 % 6) - 1)) (6 - 5 % 6) (5 / 6 + 1) with
      | .ok (_, got) => decide (got = 31)
      | .error _ => false) = true := by decide +kernel

theorem witness_ReadString :
    (withText "85<<?0" 0).initialised = true ∧ 35 % 6 ≠ 0 ∧
    6 * (b "85<<?0").length - 0 < 1 + 36 ∧
    (0 + 36 ≤ 6 * (b "85<<?0").length - 0 ∧ SpanLegal (b "85<<?0") 0 36) ∧
    (0 + 18 ≤ 6 * (b "8X<").length ∧ FirstIllegal (b "8X<") 0 18 1) := by decide +kernel

theorem witness_ReadBuffer :
    (withText "85<<?0" 0).initialised = true ∧ 6 * (b "85<<?0").length - 0 < 37 + 0 ∧
    36 ≤ 6 * (b "85<<?0").length - 0 ∧
    (35 + 1 ≤ 6 * (b "85<<?0").length - 0 ∧ SpanLegal (b "85<<?0") 35 1) ∧
    (0 + 18 ≤ 6 * (b "8X<").length ∧ FirstIllegal (b "8X<") 0 18 1) := by decide +kernel

theorem witness_ReadsSeeOnlyTheirSpan :
    SameSpan (b "8X<") (b "9X<") 12 6 ∧ 12 + 6 ≤ bitLen (b "8X<") 0 ∧ 12 + 6 ≤ bitLen (b "9X<") 0 := by decide +kernel

theorem witness_LoadPayload :
    fresh.initialised = true ∧ (6 * (b "0").length ≤ 6 ∧ ¬(b "0" = [] ∧ 6 = 0)) ∧
    (6 * ([] : Bytes).length ≤ 1 ∧ ¬(([] : Bytes) = [] ∧ 1 = 0)) ∧
    (5 < 6 * (b "0").length ∧ fits fresh.params.textMax (b "0").length = true) ∧
    fits (capped 1).params.textMax (b "0").length = true := by decide

theorem witness_BitLength :
    fresh.initialised = true ∧ SlotOk fresh ∧ fresh.text = [] ∧ (withText "0" 5).initialised = true ∧
    SlotOk (withText "0" 5) ∧ (withText "0" 5).text ≠ [] := by decide

theorem witness_RaisingChangesNothing :
    isCodec (.bcLoad 6 (b "0")) = true ∧
    exec (.bcLoad 6 (b "0")) fresh = .next { fresh with ret := .raised .malformedPayload } := by
  constructor <;> rfl

theorem witness_UnsupportedTypes : fresh.initialised = true := rfl

theorem witness_SupportedTypes :
    (withText "1" 0).initialised = true ∧ verdict (withText "1" 0) .dec1to3 1 (b "1") 0 [] = .tooShort ∧
    verdict fresh .dec1to3 1 payload 24 [] = .ok ∧
    verdict { fresh with mm := ⟨[], .external []⟩ } .dec1to3 1 payload 0 [] = .external [] := by decide +kernel

theorem witness_MinimumLengths :
    fresh.params.minBits.lookup .dec8 = some 56 ∧ fresh.params.minBits.lookup .dec27 = none ∧
    (56 ≤ 6 * (b "8000000000").length - 4 ∧
      fresh.mm.answer ⟨.dec8, 8, b "8000000000", 4, []⟩ = .ok ∧
      ({ fresh with mm := ⟨[], .external []⟩ } : State).mm.answer ⟨.dec8, 8, b "8000000000", 4, []⟩ = .external []) ∧
    6 * (b "8000000000").length - 5 < 56 := by decide +kernel

theorem witness_DecodeOutcome :
    fresh.initialised = true ∧ fits fresh.params.textMax payload.length = true ∧
    fits (capped 28).params.textMax payload.length = true := by decide +kernel

theorem witness_DecodeDependsOnFirstByte :
    ∃ t t', ([0x37, 0x58] : Bytes).length = ([0x37, 0x77] : Bytes).length ∧ ([0x37, 0x58] : Bytes)[0]? = ([0x37, 0x77] : Bytes)[0]? ∧
      (∀ d ty, verdict { fresh with params := { Params.default with minBits := [] } } d ty ([0x37, 0x58] : Bytes) 0 [] =
        verdict { fresh with params := { Params.default with minBits := [] } } d ty ([0x37, 0x77] : Bytes) 0 []) ∧
      decodePayload ([0x37, 0x58] : Bytes) 0 [] { fresh with params := { Params.default with minBits := [] } } = .next t ∧
      decodePayload ([0x37, 0x77] : Bytes) 0 [] { fresh with params := { Params.default with minBits := [] } } = .next t' :=
  ⟨_, _, rfl, rfl, fun _ _ => rfl, rfl, rfl⟩

theorem witness_SingleSentence :
    fresh.initialised = true ∧ (frag 1 0).count = 1 ∧ (frag 1 0).index ≠ 1 ∧ (frag 1 2).index ≠ 1 ∧ (frag 1 1).index = 1 ∧
    fits fresh.params.textMax (frag 1 1).armoured.length = true := by decide

theorem witness_FirstFragment :
    (withCtx "3" 2 "xx").initialised = true ∧ (1 < (frag 2 1).count ∧ (frag 2 1).index = 1) ∧
    (fragOf 2 1 "P" 1).fill ≠ 0 ∧ (frag 2 1).fill = 0 ∧
    ctxHas (frag 2 1).seqId (withCtx "3" 2 "xx").ctx = true ∧ ctxHas (frag 2 1).seqId (withCtx "4" 2 "xx").ctx = false ∧
    fits (withCtx "4" 2 "xx").params.textMax (frag 2 1).armoured.length = true ∧
    fits (withCtx "4" 2 "xx").params.ctxCap ((withCtx "4" 2 "xx").ctx.length + 1) = true := by decide

theorem witness_MiddleFragment :
    (withCtx "3" 2 "xx").initialised = true ∧ (1 < (frag 3 2).index ∧ (frag 3 2).index < (frag 3 2).count) ∧
    (fragOf 3 2 "P" 1).fill ≠ 0 ∧ (frag 3 2).fill = 0 ∧
    ctxGet (frag 3 2).seqId fresh.ctx = none ∧
    (ctxGet (frag 4 3).seqId (withCtx "3" 2 "xx").ctx = some ⟨2, b "xx"⟩ ∧ 2 ≠ (frag 4 3).index) ∧
    ctxGet (frag 3 2).seqId (withCtx "3" 2 "xx").ctx = some ⟨(frag 3 2).index, b "xx"⟩ ∧
    fits (withCtx "3" 2 "xx").params.textMax (b "xx" ++ (frag 3 2).armoured).length = true ∧
    fits (withCtx "3" 2 "xx").params.ctxCap
      (ctxPut (frag 3 2).seqId ⟨3, b "xx" ++ (frag 3 2).armoured⟩ (withCtx "3" 2 "xx").ctx).length = true := by decide

theorem witness_FinalFragment :
    (withCtx "3" 2 "xx").initialised = true ∧ (1 < (frag 2 2).count ∧ (frag 2 2).index = (frag 2 2).count) ∧
    ctxGet (frag 2 2).seqId fresh.ctx = none ∧
    (ctxGet (frag 3 3).seqId (withCtx "3" 2 "xx").ctx = some ⟨2, b "xx"⟩ ∧ 2 ≠ (frag 3 3).index) ∧
    ctxGet (frag 2 2).seqId (withCtx "3" 2 "xx").ctx = some ⟨(frag 2 2).index, b "xx"⟩ ∧
    fits (withCtx "3" 2 "xx").params.textMax (b "xx" ++ (frag 2 2).armoured).length = true := by decide

theorem witness_BadSequenceNumbers :
    (withCtx "3" 2 "xx").initialised = true ∧ (frag 0 1).count = 0 ∧
    (1 < (frag 2 0).count ∧ (frag 2 0).index = 0) ∧ (1 < (frag 2 3).count ∧ (frag 2 3).count < (frag 2 3).index) := by
  decide

theorem witness_RefusedBeforeInit :
    State.powerOn.initialised = false ∧ ∀ c, Instr.bcLen ≠ .spInit c := by decide

theorem witness_WrongFieldCount :
    fresh.initialised = true ∧ fits fresh.params.sentMax (b "!AIVDM,1,1,,B,P").length = true ∧
    (split (b "!AIVDM,1,1,,B,P")).length = 6 ∧ (split (b "!AIVDM,1,1,,B,P,0,0")).length = 8 ∧
    ([] : List Bytes).length ≠ 7 := by decide +kernel

theorem witness_UnsupportedTalker :
    fresh.initialised = true ∧ b "$GPGLL" ≠ tagVdm ∧ b "$GPGLL" ≠ tagVdo ∧
    fits fresh.params.sentMax (b "$GPGLL,1,1,,B,x,0*00").length = true ∧
    split (b "$GPGLL,1,1,,B,x,0*00") = [b "$GPGLL", b "1", b "1", [], b "B", b "x", b "0*00"] := by decide +kernel

theorem witness_ChecksumMismatch :
    fresh.initialised = true ∧ fresh.chkDefault = true ∧
    fits fresh.params.sentMax (b "!AIVDM,x,1,,B,P,0*00").length = true ∧
    split (b "!AIVDM,x,1,,B,P,0*00") = [tagVdm, b "x", b "1", [], b "B", b "P", b "0*00"] ∧
    checksumMatches (b "!AIVDM,x,1,,B,P,0*00") = false := by decide +kernel

theorem witness_ParseIsParseFields :
    fits fresh.params.sentMax (b "!AIVDM,1,1,,A,P,0*76").length = true ∧
    checksumMatches (b "!AIVDM,1,1,,A,P,0*76") = true ∧ State.reset.chkDefault = false := by decide +kernel

theorem witness_NumbersNotDecimal :
    fresh.initialised = true ∧ dec (b "x") = none ∧ dec ((b "*45").takeWhile fun c => c != 0x2A) = none ∧
    split (b "!AIVDM,1,1,,B,P,*45") = [tagVdm, b "1", b "1", [], b "B", b "P", b "*45"] ∧
    checksumMatches (b "!AIVDM,1,1,,B,P,*45") = true := by decide +kernel

theorem witness_ParseFieldsRunsTheClass :
    fresh.initialised = true ∧ dec (b "01") = some 1 ∧ dec (b "001") = some 1 ∧
    dec ((b "00*75").takeWhile fun c => c != 0x2A) = some 0 := by decide +kernel

theorem witness_ParseRunsTheDecodedSentence :
    fresh.initialised = true ∧ fits fresh.params.sentMax (b "!AIVDM,1,1,3,B,P,0*46").length = true ∧
    decode (.sentence (b "!AIVDM,1,1,3,B,P,0*46")) = .ok (.sentSingle (frag 1 1)) ∧
    checksumMatches (b "!AIVDM,1,1,3,B,P,0*46") = true := by decide +kernel

theorem witness_SingleSentenceParses :
    fresh.initialised = true ∧ Unbounded fresh ∧ (Instr.sentSingle (frag 1 1)).wf = true ∧ (frag 1 1).index = 1 := by
  decide

theorem witness_EveryParseEnds : fresh.initialised = true ∧ Unbounded fresh := by decide

/-- One more than each capacity, and a capacity of no context at all. -/
theorem witness_CapacitiesRefuse :
    (capped 1).initialised = true ∧
    ((capped 1).params.sentMax = some 1 ∧ 1 < (b "!A").length) ∧
    ((capped 1).params.textMax = some 1 ∧ 1 < (b "00").length ∧ 11 < 6 * (b "00").length) ∧
    (1 < (fragOf 2 1 "xx" 0).armoured.length ∧ (fragOf 2 1 "xx" 0).fill = 0 ∧
      ctxHas (fragOf 2 1 "xx" 0).seqId (capped 1).ctx = false) ∧
    ((capped 0).params.ctxCap = some 0 ∧ 0 ≤ (capped 0).ctx.length ∧ (frag 2 1).fill = 0 ∧
      ctxHas (frag 2 1).seqId (capped 0).ctx = false) ∧
    (11 < 6 * (fragOf 1 1 "xx" 11).armoured.length ∧ (fragOf 1 1 "xx" 11).index = 1) ∧
    (ctxGet (frag 3 2).seqId (cappedCtx 1).ctx = some ⟨(frag 3 2).index, b "x"⟩ ∧
      1 < (b "x" ++ (frag 3 2).armoured).length ∧ (frag 3 2).fill = 0) ∧
    ((cappedCtx 0).params.ctxCap = some 0 ∧
      0 < (ctxPut (frag 3 2).seqId ⟨3, b "x" ++ (frag 3 2).armoured⟩ (cappedCtx 0).ctx).length) ∧
    (ctxGet (fragOf 2 2 "x" 11).seqId (cappedCtx 1).ctx = some ⟨(fragOf 2 2 "x" 11).index, b "x"⟩ ∧
      (fragOf 2 2 "x" 11).fill < 6 * (b "x" ++ (fragOf 2 2 "x" 11).armoured).length) := by decide +kernel

theorem witness_StepRunsTheDecoded :
    (fresh.present (.command 0x90000000 .none)).input = .command 0x90000000 .none :: [] ∧
    decode (.command 0x90000000 .none) = .ok .bcLen ∧
    (fresh.present (.tag 0)).input = .tag 0 :: [] ∧ decode (.tag 0) = .error .unsupportedTag ∧
    fresh.input = [] := by decide

theorem witness_StepKeepsInvariant :
    Inv (withCtx "3" 2 "xx") ∧ ∃ t, step ((withCtx "3" 2 "xx").present (.command 0x90000000 .none)) = .next t :=
  ⟨⟨by decide, by decide, by decide⟩, _, rfl⟩

theorem witness_StepKeepsReportTable :
    ReportOk fresh ∧ ∃ t, step (fresh.present (.typeField 6 [])) = .next t :=
  ⟨fun r h => by simp [fresh, State.reset] at h, _, rfl⟩

theorem witness_OnlyInitWritesControl :
    (∀ c, Instr.bcLen ≠ .spInit c) ∧ ∃ t, exec .bcLen fresh = .next t := ⟨by decide, _, rfl⟩

theorem witness_OtherContextsUntouched :
    (∀ c, Instr.sentBadseq (frag 0 0) ≠ .spInit c) ∧ keyOf (.sentBadseq (frag 0 0)) ≠ some (b "4") ∧
    keyOf .bcLen = none ∧ (∃ t, exec .bcLen fresh = .next t) ∧
    ∃ t, exec (.sentBadseq (frag 0 0)) (withCtx "4" 2 "xx") = .next t :=
  ⟨by decide, by decide, rfl, ⟨_, rfl⟩, _, rfl⟩

theorem witness_SequencesDoNotInteract :
    ctxGet (frag 0 0).seqId [(b "4", ⟨2, b "xx"⟩)] = ctxGet (frag 0 0).seqId fresh.ctx ∧
    (∃ t, runClass (frag 0 0) fresh = .next t) ∧
    ∃ t, runClass (frag 0 0) { fresh with ctx := [(b "4", ⟨2, b "xx"⟩)] } = .next t :=
  ⟨by decide, ⟨_, rfl⟩, _, rfl⟩

theorem witness_EarlyFailuresKeepContexts :
    ∃ t r, exec (.spParsef []) (withCtx "3" 2 "xx") = .next t ∧ t.result = some r ∧ r.kind = some .structural :=
  ⟨_, _, rfl, rfl, rfl⟩

theorem witness_ResultNeverReadBack :
    SameButReported fresh { fresh with ret := .ok (.nat 7) } := rfl

theorem witness_WhoWritesResult :
    isCodec .bcLen = true ∧ (∃ t, exec .bcLen fresh = .next t) ∧ ∃ t, exec (.spParsef []) fresh = .next t :=
  ⟨rfl, ⟨_, rfl⟩, _, rfl⟩

theorem witness_ResultWordFields :
    fresh.result = none ∧ ({ fresh with result := some ⟨.incomplete, none, none, [], none, none, []⟩ } : State).result =
      some ⟨.incomplete, none, none, [], none, none, []⟩ := ⟨rfl, rfl⟩

theorem witness_ContextPrimitives :
    ctxHas (b "4") (withCtx "3" 2 "xx").ctx = false ∧ b "4" ≠ b "3" := by decide

end Sys2Proof.Tests
end

section
/-! SUPPORT. The context primitives (spec/00_scope.md R13), on every map whether or not its keys are in order: what a
read answers after a put and after a delete, and O60. -/

namespace Sys2Proof.Machine

@[simp] theorem ctxGet_nil (k : Bytes) : ctxGet k [] = none := rfl

theorem ctxGet_cons (k : Bytes) (p : Bytes × CtxEntry) (c : Ctx) :
    ctxGet k (p :: c) = if p.1 = k then some p.2 else ctxGet k c := rfl

theorem ctxPut_cons (k : Bytes) (e : CtxEntry) (p : Bytes × CtxEntry) (c : Ctx) :
    ctxPut k e (p :: c) =
      if p.1 = k then (k, e) :: c else if bytesLt k p.1 then (k, e) :: p :: c else p :: ctxPut k e c := rfl

theorem ctxHas_iff {k : Bytes} {c : Ctx} : ctxHas k c = true ↔ ∃ e, ctxGet k c = some e :=
  Option.isSome_iff_exists

theorem ctxHas_eq_false_iff {k : Bytes} {c : Ctx} : ctxHas k c = false ↔ ctxGet k c = none :=
  Option.isSome_eq_false_iff.trans Option.isNone_iff_eq_none

/-- Without an entry of a key, no pair of the map has that key. -/
theorem key_ne_of_ctxHas_eq_false {k : Bytes} {c : Ctx} (h : ctxHas k c = false) : ∀ p ∈ c, p.1 ≠ k := by
  rw [ctxHas_eq_false_iff] at h
  induction c with
  | nil => simp
  | cons q c ih =>
    rw [ctxGet_cons] at h
    split at h
    · cases h
    · next hq => exact List.forall_mem_cons.2 ⟨hq, ih h⟩

@[simp] theorem ctxGet_ctxPut_same (k : Bytes) (e : CtxEntry) (c : Ctx) : ctxGet k (ctxPut k e c) = some e := by
  induction c with
  | nil => simp [ctxPut, ctxGet_cons]
  | cons p c ih =>
    rw [ctxPut_cons]
    split
    · simp [ctxGet_cons]
    · next hp =>
      split
      · simp [ctxGet_cons]
      · simp [ctxGet_cons, hp, ih]

theorem ctxGet_ctxPut_other {k k' : Bytes} (hk : k' ≠ k) (e : CtxEntry) (c : Ctx) :
    ctxGet k' (ctxPut k e c) = ctxGet k' c := by
  induction c with
  | nil => simp [ctxPut, ctxGet_cons, hk.symm]
  | cons p c ih =>
    rw [ctxPut_cons]
    split
    · next hp => simp [ctxGet_cons, hp, hk.symm]
    · split
      · simp [ctxGet_cons, hk.symm]
      · simp [ctxGet_cons, ih]

@[simp] theorem ctxGet_ctxDel_same (k : Bytes) (c : Ctx) : ctxGet k (ctxDel k c) = none := by
  cases h : ctxGet k (ctxDel k c) with
  | none => rfl
  | some e =>
    have hk : (k, e).1 ≠ k := of_decide_eq_true (List.mem_filter.1 (mem_of_ctxGet h)).2
    exact absurd rfl hk

theorem ctxGet_ctxDel_other {k k' : Bytes} (hk : k' ≠ k) (c : Ctx) : ctxGet k' (ctxDel k c) = ctxGet k' c := by
  induction c with
  | nil => rfl
  | cons p c ih =>
    have hdel : ctxDel k (p :: c) = if p.1 ≠ k then p :: ctxDel k c else ctxDel k c := by
      simp [ctxDel, List.filter_cons]
    rw [hdel]
    split
    · simp [ctxGet_cons, ih]
    · next hp =>
      have hp' : p.1 ≠ k' := fun h => hk (h ▸ not_not.1 hp)
      simp [ctxGet_cons, hp', ih]

theorem ctxDel_of_ctxHas_eq_false {k : Bytes} {c : Ctx} (h : ctxHas k c = false) : ctxDel k c = c :=
  List.filter_eq_self.2 fun p hp => decide_eq_true (key_ne_of_ctxHas_eq_false h p hp)

/-- A put of a new key makes the map larger by one. -/
theorem length_ctxPut_of_ctxHas_eq_false {k : Bytes} {c : Ctx} (h : ctxHas k c = false) (e : CtxEntry) :
    (ctxPut k e c).length = c.length + 1 := by
  have hne := key_ne_of_ctxHas_eq_false h
  clear h
  induction c with
  | nil => rfl
  | cons p c ih =>
    obtain ⟨hp, hc⟩ := List.forall_mem_cons.1 hne
    rw [ctxPut_cons, if_neg hp]
    split
    · rfl
    · simp [ih hc]

/-- Settles O60: each primitive by induction on the list of pairs, none of which needs the keys to be in order. -/
theorem contextPrimitives : Obligations.ContextPrimitives := by
  intro c k e
  exact ⟨ctxHas_iff, ctxGet_ctxPut_same k e c, ctxGet_ctxDel_same k c, ctxDel_of_ctxHas_eq_false,
    fun _ hk => ⟨ctxGet_ctxPut_other hk e c, ctxGet_ctxDel_other hk c⟩⟩

end Sys2Proof.Machine
end

section
/-! SUPPORT. `SP.PARSE` of a sentence that decodes (spec/00_scope.md R2, spec/42_sentence_front_end.md R152): the
decoder and the parser read the same seven fields, so both end in the same class of sentence. O45. -/

namespace Sys2Proof.Machine

/-- A sentence's instruction, executed, is the class that the parser runs (30 R78). -/
theorem exec_sentenceInstr (x : Fragment) (s : State) : exec (sentenceInstr x) s = runClass x s := by
  unfold sentenceInstr runClass
  cases classOf x.count x.index <;> rfl

/-- What a sentence that decodes looks like: seven fields, a supported tag and numbers that convert. -/
theorem decodeSentence_eq_ok {S : Bytes} {i : Instr} (h : decodeSentence S = .ok i) :
    ∃ tag cnt idx k ch a f7 own x, split S = [tag, cnt, idx, k, ch, a, f7] ∧ tagKind tag = some own ∧
      convertFields own cnt idx k ch a f7 = some x ∧ i = sentenceInstr x := by
  unfold decodeSentence at h
  split at h
  · next tag cnt idx k ch a f7 hS =>
    split at h
    · cases h
    · next own hown =>
      split at h
      · cases h
      · next x hx => exact ⟨tag, cnt, idx, k, ch, a, f7, own, x, hS, hown, hx, (Except.ok.inj h).symm⟩
  · cases h

/-- The seven steps on fields that pass the tag test, the checksum and the conversions run the class (42 R152). -/
theorem parseFields_of_converted {tag cnt idx k ch a f7 : Bytes} {own : Bool} {x : Fragment} {s : State}
    (hi : s.initialised = true) (hown : tagKind tag = some own)
    (hx : convertFields own cnt idx k ch a f7 = some x) :
    parseFields true [tag, cnt, idx, k, ch, a, f7] s = runClass x s := by
  simp [parseFields, hown, execTagAivdmAivdo, hi, runFields, hx]

/-- Step 2 lets a sentence pass when it is off, by the option or by `CHK_DEFAULT`, or when the checksum matches
(42 R156, R157). -/
theorem checksum_passes {opt : Option Bool} {chkDefault : Bool} {S : Bytes}
    (h : opt = some false ∨ (opt = none ∧ chkDefault = false) ∨ checksumMatches S = true) :
    (!effectiveCheck opt chkDefault || checksumMatches S) = true := by
  rcases h with rfl | ⟨rfl, rfl⟩ | hS
  · rfl
  · rfl
  · simp [hS]

theorem exec_spParse_of_fits {opt : Option Bool} {S : Bytes} {s : State} (hi : s.initialised = true)
    (hfit : fits s.params.sentMax S.length = true) :
    exec (.spParse opt S) s =
      parseFields (!effectiveCheck opt s.chkDefault || checksumMatches S) (split S) s := by
  simp [exec, execSpParse, hi, hfit]

/-- Settles O45: the two outcomes are equal, message included. -/
theorem parseRunsTheDecodedSentence : Obligations.ParseRunsTheDecodedSentence := by
  intro s opt S i hi hfit hdec hsum
  obtain ⟨tag, cnt, idx, k, ch, a, f7, own, x, hS, hown, hx, rfl⟩ := decodeSentence_eq_ok hdec
  rw [exec_spParse_of_fits hi hfit, checksum_passes hsum, hS, parseFields_of_converted hi hown hx,
    exec_sentenceInstr]

end Sys2Proof.Machine
end

section
/-! SUPPORT. Finite capacities (spec/10_state.md R26, spec/70_reset_interface.md R256): the load of the slot and the
store of a context refuse what does not fit, and every operation that comes to one of them refuses with it. O48. -/

namespace Sys2Proof.Machine

section Capacity

variable {s : State} {m : Nat}

theorem fits_eq_false_of_lt {cap : Option Nat} {n : Nat} (hcap : cap = some m) (hn : m < n) : fits cap n = false := by
  simp [hcap, fits_some, hn]

/-- An operation that goes on from an outcome is refused when that outcome is. -/
theorem andThen_refuses {α β : Type} {o : Host.Outcome α Fault Refusal} (h : ∃ r, o = .refused r)
    (k : α → Host.Outcome β Fault Refusal) : ∃ r, andThen o k = .refused r := by
  obtain ⟨r, rfl⟩ := h
  exact ⟨r, rfl⟩

/-! ### The two operations that look at a capacity -/

/-- A well-formed load of a text above `TEXT_MAX` is refused. -/
theorem loadSlot_too_long {text : Bytes} {fill : Nat} (hcap : s.params.textMax = some m) (hlen : m < text.length)
    (hfill : fill < 6 * text.length) : loadSlot text fill s = .refused .textTooLong := by
  have hne : ¬(text = [] ∧ fill = 0) := by rintro ⟨rfl, -⟩; simp at hlen
  rw [loadSlot, if_neg hne, if_neg (by omega), if_neg (by simp [fits_eq_false_of_lt hcap hlen])]

theorem decodePayload_too_long {text ch : Bytes} {f : Nat} (hcap : s.params.textMax = some m)
    (hlen : m < text.length) (hfill : f < 6 * text.length) : decodePayload text f ch s = .refused .textTooLong := by
  rw [decodePayload, loadSlot_too_long hcap hlen hfill, andThen_refused]

theorem storeContext_text_too_long {k acc : Bytes} {n : Nat} (hcap : s.params.textMax = some m)
    (hlen : m < acc.length) : storeContext k n acc s = .refused .textTooLong := by
  rw [storeContext, if_pos (fits_eq_false_of_lt hcap hlen)]

/-- A context map above `CTX_CAP` is refused, by the name of `TEXT_MAX` where that is exceeded too (log 20). -/
theorem storeContext_map_too_large {k acc : Bytes} {n : Nat} (hcap : s.params.ctxCap = some m)
    (hlen : m < (ctxPut k ⟨n, acc⟩ s.ctx).length) : ∃ r, storeContext k n acc s = .refused r := by
  rw [storeContext, if_pos (fits_eq_false_of_lt hcap hlen)]
  split
  · exact ⟨_, rfl⟩
  · exact ⟨_, rfl⟩

/-! ### The operations that come to them -/

theorem exec_bcLoad_too_long {text : Bytes} {fill : Nat} (hi : s.initialised = true)
    (hcap : s.params.textMax = some m) (hlen : m < text.length) (hfill : fill < 6 * text.length) :
    exec (.bcLoad fill text) s = .refused .textTooLong := by
  simp [exec, execBcLoad, hi, loadSlot_too_long hcap hlen hfill]

theorem exec_sentSingle_of_index_one {x : Fragment} (hi : s.initialised = true) (hx : x.index = 1) :
    exec (.sentSingle x) s = decodePayload x.armoured x.fill x.channel s := by
  simp [exec, execSentSingle, hi, hx]

theorem exec_sentFirst_of_new {x : Fragment} (hi : s.initialised = true) (hfill : x.fill = 0)
    (hnew : ctxHas x.seqId s.ctx = false) :
    exec (.sentFirst x) s =
      andThen (storeContext x.seqId 2 x.armoured s) fun s' => .next (incomplete x.channel s') := by
  simp [exec, execSentFirst, hi, hfill, hnew]

theorem exec_sentMiddle_of_awaited {x : Fragment} {acc : Bytes} (hi : s.initialised = true) (hfill : x.fill = 0)
    (hctx : ctxGet x.seqId s.ctx = some ⟨x.index, acc⟩) :
    exec (.sentMiddle x) s =
      andThen (storeContext x.seqId (x.index + 1) (acc ++ x.armoured) s) fun s' =>
        .next (incomplete x.channel s') := by
  simp [exec, execSentMiddle, hi, hfill, hctx]

theorem exec_sentFinal_of_awaited {x : Fragment} {acc : Bytes} (hi : s.initialised = true)
    (hctx : ctxGet x.seqId s.ctx = some ⟨x.index, acc⟩) :
    exec (.sentFinal x) s =
      decodePayload (acc ++ x.armoured) x.fill x.channel (dropContext x.seqId s) := by
  simp [exec, execSentFinal, hi, hctx]

theorem exec_spParse_too_long {opt : Option Bool} {S : Bytes} (hi : s.initialised = true)
    (hcap : s.params.sentMax = some m) (hlen : m < S.length) :
    exec (.spParse opt S) s = .refused .sentenceTooLong := by
  simp [exec, execSpParse, hi, fits_eq_false_of_lt hcap hlen]

end Capacity

/-- Settles O48: each operation comes to the load or to the store that does not fit. -/
theorem capacitiesRefuse : Obligations.CapacitiesRefuse := by
  intro s m hi
  refine ⟨?sentence, ?load, ?step7, ?single, ?firstText, ?firstMap, ?middleText, ?middleMap, ?final⟩
  case sentence => exact fun opt S hcap hlen => ⟨_, exec_spParse_too_long hi hcap hlen⟩
  case load => exact fun fill text hcap hlen hfill => ⟨_, exec_bcLoad_too_long hi hcap hlen hfill⟩
  case step7 => exact fun text f ch hcap hlen hfill => ⟨_, decodePayload_too_long hcap hlen hfill⟩
  case single =>
    intro x hcap hlen hfill hx
    rw [exec_sentSingle_of_index_one hi hx]
    exact ⟨_, decodePayload_too_long hcap hlen hfill⟩
  case firstText =>
    intro x hcap hlen hfill hnew
    rw [exec_sentFirst_of_new hi hfill hnew]
    exact andThen_refuses ⟨_, storeContext_text_too_long hcap hlen⟩ _
  case firstMap =>
    intro x hcap hlen hfill hnew
    rw [exec_sentFirst_of_new hi hfill hnew]
    have hlarger : m < (ctxPut x.seqId ⟨2, x.armoured⟩ s.ctx).length := by
      rw [length_ctxPut_of_ctxHas_eq_false hnew]
      omega
    exact andThen_refuses (storeContext_map_too_large hcap hlarger) _
  case middleText =>
    intro x acc hcap hlen hfill hctx
    rw [exec_sentMiddle_of_awaited hi hfill hctx]
    exact andThen_refuses ⟨_, storeContext_text_too_long hcap hlen⟩ _
  case middleMap =>
    intro x acc hcap hlen hfill hctx
    rw [exec_sentMiddle_of_awaited hi hfill hctx]
    exact andThen_refuses (storeContext_map_too_large hcap hlen) _
  case final =>
    intro x acc hcap hlen hfill hctx
    rw [exec_sentFinal_of_awaited hi hctx]
    exact ⟨_, decodePayload_too_long (s := dropContext x.seqId s) hcap hlen hfill⟩

end Sys2Proof.Machine
end

section
/-! SUPPORT. What every step keeps (spec/10_state.md R21, R28, R29, R32): the invariant of the context map and the
slot, the table of `RESULT`, and `CHK_DEFAULT`. Each is read off the effects of `Act`, one case for each kind of
effect. O50, O51, O52, O53. -/

namespace Sys2Proof.Machine

/-! ### From instructions to steps -/

/-- What a step that goes on can do: nothing, or what the oldest thing presented decodes into. -/
theorem step_eq_next {s t : State} (h : step s = .next t) :
    t = s ∨ ∃ x rest i, s.input = x :: rest ∧ decode x = .ok i ∧ exec i { s with input := rest } = .next t := by
  unfold step at h
  split at h
  · exact .inl (Host.Outcome.next.inj h).symm
  · next x rest hin =>
    split at h
    · cases h
    · next i hi => exact .inr ⟨x, rest, i, hin, hi, h⟩

/-- A property that does not look at what is presented, and that every instruction keeps, is kept by every step. -/
theorem step_keeps {P : State → Prop} (hinput : ∀ s rest, P s → P { s with input := rest })
    (hexec : ∀ i s t, P s → exec i s = .next t → P t) {s t : State} (hs : P s) (h : step s = .next t) : P t := by
  rcases step_eq_next h with rfl | ⟨_, rest, i, -, -, hi⟩
  · exact hs
  · exact hexec i _ t (hinput s rest hs) hi

/-- A dispatch case with a decoder writes one report about its type, legal when the decoder is the type's own. -/
theorem dispatchTo_writes (d : Decoder) (ty : Sym) (ch : Bytes) (s : State) :
    ∃ v kind exc, dispatchTo d ty ch s = writeResult v kind exc (some ty) (some d) ch s ∧
      (dispatchTable ty = some d → ∀ m, (Report.mk v kind exc m (some ty) (some d) ch).legal) := by
  rcases dispatchTo_cases d ty ch s with h | h | h
  · exact ⟨_, _, _, h, fun hd _ => ⟨.inl rfl, hd⟩⟩
  · exact ⟨_, _, _, h, fun hd _ => ⟨.inr rfl, hd⟩⟩
  · exact ⟨_, _, _, h, fun hd _ => hd⟩

/-! ### The invariant of the context map and the slot -/

theorem next_ctxDel {k : Bytes} {c : Ctx} (hc : ∀ p ∈ c, 2 ≤ p.2.next) : ∀ p ∈ ctxDel k c, 2 ≤ p.2.next :=
  fun p hp => hc p (mem_ctxDel hp)

theorem next_ctxPut {k : Bytes} {e : CtxEntry} {c : Ctx} (hc : ∀ p ∈ c, 2 ≤ p.2.next) (he : 2 ≤ e.next) :
    ∀ p ∈ ctxPut k e c, 2 ≤ p.2.next := by
  intro p hp
  rcases mem_ctxPut hp with rfl | hp
  · exact he
  · exact hc p hp

/-- The invariant looks at the context map and the slot alone. -/
theorem Inv.congr {s t : State} (hs : Inv s) (hctx : t.ctx = s.ctx) (htext : t.text = s.text)
    (hfill : t.fill = s.fill) : Inv t := by
  obtain ⟨hwf, hnext, hslot⟩ := hs
  constructor
  · rwa [Memory.wf, hctx]
  · rwa [NextOk, hctx]
  · rwa [SlotOk, htext, hfill]

theorem Inv.of_parsed {k : Bytes} {s t : State} (hs : Inv s) (h : Parsed k s t) : Inv t := by
  obtain ⟨c, text, fill, v, kind, exc, ty, d, ch, rfl, hc, hslot, -, -⟩ := h
  obtain ⟨hwf, hnext, -⟩ := hs
  have hctx : Ctx.wf c ∧ ∀ p ∈ c, 2 ≤ p.2.next := by
    rcases hc with rfl | rfl | ⟨n, acc, rfl, hn⟩
    · exact ⟨hwf, hnext⟩
    · exact ⟨ctxDel_wf k hwf, next_ctxDel hnext⟩
    · have hn2 : 2 ≤ n := by
        rcases hn with rfl | ⟨e, he, rfl⟩
        · exact le_rfl
        · exact Nat.le_succ_of_le (hnext _ (mem_of_ctxGet he))
      exact ⟨ctxPut_wf k _ hwf, next_ctxPut hnext hn2⟩
  exact ⟨hctx.1, hctx.2, hslot⟩

theorem Inv.of_exec {i : Instr} {s t : State} (hs : Inv s) (h : exec i s = .next t) : Inv t := by
  cases act h with
  | init c hi ht => subst ht; exact ⟨List.Pairwise.nil, nofun, .inl ⟨rfl, rfl⟩⟩
  | parsed k hk hp => exact hs.of_parsed hp
  | short hp ht => subst ht; exact ⟨hs.canonical, hs.next, .inl ⟨rfl, rfl⟩⟩
  | load hi text fill hslot ht => subst ht; exact ⟨hs.canonical, hs.next, hslot⟩
  | ans hi v ht => subst ht; exact hs.congr rfl rfl rfl
  | rse hi e ht => subst ht; exact hs.congr rfl rfl rfl
  | tag own hi ht => subst ht; exact hs
  | unsup ty ch hi hd ht => subst ht; exact hs.congr rfl rfl rfl
  | sup ty ch d hi hd ht =>
    obtain ⟨v, kind, exc, hw, -⟩ := dispatchTo_writes d ty ch s
    rw [ht, hw]
    exact hs.congr rfl rfl rfl

/-- Settles O50: every effect of an instruction keeps the invariant, a stored context awaiting fragment 2 or the
successor of what was awaited. -/
theorem stepKeepsInvariant : Obligations.StepKeepsInvariant :=
  fun _ _ => step_keeps (fun _ _ hs => hs.congr rfl rfl rfl) fun _ _ _ => Inv.of_exec

/-- Settles O51. -/
theorem resetMeetsInvariant : Obligations.ResetMeetsInvariant :=
  ⟨⟨reset_memory_wf, nofun, .inl ⟨rfl, rfl⟩⟩, rfl, rfl, rfl, rfl⟩

/-! ### The table of results -/

theorem ReportOk.congr {s t : State} (hs : ReportOk s) (h : t.result = s.result) : ReportOk t :=
  fun r hr => hs r (h ▸ hr)

theorem reportOk_of_none {s : State} (h : s.result = none) : ReportOk s :=
  fun _ hr => nomatch h.symm.trans hr

theorem reportOk_of_some {s : State} {r : Report} (h : s.result = some r) (hr : r.legal) : ReportOk s :=
  fun _ hr' => Option.some.inj (h.symm.trans hr') ▸ hr

theorem ReportOk.of_exec {i : Instr} {s t : State} (hs : ReportOk s) (h : exec i s = .next t) : ReportOk t := by
  cases act h with
  | init c hi ht => subst ht; exact reportOk_of_none rfl
  | parsed k hk hp =>
    obtain ⟨c, text, fill, v, kind, exc, ty, d, ch, rfl, -, -, hl, -⟩ := hp
    exact reportOk_of_some (writeResult_result ..) (hl _)
  | short hp ht => subst ht; exact reportOk_of_some (fail_result ..) trivial
  | load hi text fill hslot ht => subst ht; exact hs.congr rfl
  | ans hi v ht => subst ht; exact hs.congr rfl
  | rse hi e ht => subst ht; exact hs.congr rfl
  | tag own hi ht => subst ht; exact hs
  | unsup ty ch hi hd ht => subst ht; exact reportOk_of_some (writeResult_result ..) hd
  | sup ty ch d hi hd ht =>
    obtain ⟨v, kind, exc, hw, hl⟩ := dispatchTo_writes d ty ch s
    rw [ht, hw]
    exact reportOk_of_some (writeResult_result ..) (hl hd _)

/-- Settles O52: an instruction keeps `RESULT`, clears it, or writes a report of the table. -/
theorem stepKeepsReportTable : Obligations.StepKeepsReportTable :=
  fun _ _ => step_keeps (fun _ _ hs => hs.congr rfl) fun _ _ _ => ReportOk.of_exec

/-! ### What only `SP.INIT` writes -/

/-- Settles O53: no effect but that of `SP.INIT` touches the two fields. -/
theorem onlyInitWritesControl : Obligations.OnlyInitWritesControl := by
  intro i s t h hinit
  cases act h with
  | init c hi ht => exact absurd hi (hinit c)
  | parsed k hk hp =>
    obtain ⟨c, text, fill, v, kind, exc, ty, d, ch, rfl, -⟩ := hp
    exact ⟨rfl, rfl⟩
  | short hp ht => subst ht; exact ⟨rfl, rfl⟩
  | load hi text fill hslot ht => subst ht; exact ⟨rfl, rfl⟩
  | ans hi v ht => subst ht; exact ⟨rfl, rfl⟩
  | rse hi e ht => subst ht; exact ⟨rfl, rfl⟩
  | tag own hi ht => subst ht; exact ⟨rfl, rfl⟩
  | unsup ty ch hi hd ht => subst ht; exact ⟨rfl, rfl⟩
  | sup ty ch d hi hd ht =>
    obtain ⟨v, kind, exc, hw, -⟩ := dispatchTo_writes d ty ch s
    rw [ht, hw]
    exact ⟨rfl, rfl⟩

end Sys2Proof.Machine
end

section
/-! SUPPORT. Step 7 (spec/44_decode_dispatch.md R190 to R198): what it answers, as the rules list it, and what its
report depends on. O30. -/

namespace Sys2Proof.Machine

/-! ### The type of a payload -/

theorem natOfBits_symBits (v : Sym) : natOfBits (symBits v) = v.toNat := by
  revert v
  decide

/-- A read of six bits at bit 0 fetches the first symbol. -/
theorem readBits_of_illegal {text : Bytes} (h : symbolAt text 0 = none) :
    readBits text 0 6 = .error (.invalidSymbol 0) := by
  simp [readBits, symCount, fetch, sym_eq, h]

theorem readBits_of_legal {text : Bytes} {v : Sym} (h : symbolAt text 0 = some v) :
    readBits text 0 6 = .ok (symBits v) := by
  simp [readBits, symCount, fetch, sym_eq, h, symBits]

/-- A type read needs six bits of payload (44 R192). -/
theorem rdu_type_of_short {text : Bytes} {fill : Nat} (h : bitLen text fill < 6) :
    rdu text fill 0 6 = .error .rangeError := by
  simp [rdu, h]

theorem rdu_type_of_illegal {text : Bytes} {fill : Nat} (h : 6 ≤ bitLen text fill) (hsym : symbolAt text 0 = none) :
    rdu text fill 0 6 = .error (.invalidSymbol 0) := by
  simp [rdu, Nat.not_lt.2 h, readBits_of_illegal hsym]

theorem rdu_type_of_legal {text : Bytes} {fill : Nat} {v : Sym} (h : 6 ≤ bitLen text fill)
    (hsym : symbolAt text 0 = some v) : rdu text fill 0 6 = .ok v.toNat := by
  simp [rdu, Nat.not_lt.2 h, readBits_of_legal hsym, natOfBits_symBits]

/-! ### The load and the dispatch -/

/-- What a load that goes on answers, by whether it is malformed; the zero-length codec is loaded like any other. -/
theorem loadSlot_ends {text : Bytes} {f : Nat} {s : State} {r : Except CodecExc State}
    (h : loadSlot text f s = .next r) :
    (Malformed text f ∧ r = .error .malformedPayload) ∨ (¬Malformed text f ∧ r = .ok (withSlot text f s)) := by
  rcases loadSlot_eq_next h with ⟨rfl, rfl, hr⟩ | ⟨hlen, hne, hr⟩ | ⟨hlen, hr⟩
  · exact .inr ⟨fun hm => hm.2 ⟨rfl, rfl⟩, hr⟩
  · exact .inl ⟨⟨hlen, hne⟩, hr⟩
  · exact .inr ⟨fun hm => Nat.not_le.2 hlen hm.1, hr⟩

/-- The state after the dispatch case of a type (44 R193, R194). -/
def dispatched (ty : Sym) (ch : Bytes) (s : State) : State :=
  match dispatchTable ty with
  | none => unsupportedType ty ch s
  | some d => dispatchTo d ty ch s

theorem runType_eq (ty : Sym) (ch : Bytes) (s : State) :
    runType ty ch s = whenReady s (.next (dispatched ty ch s)) := by
  obtain ⟨⟨n, hn⟩⟩ := ty
  have hn : n < 64 := hn
  interval_cases n <;> rfl

/-- Whatever step 7 ends in is the outcome that 44 R191 to R197 list. -/
theorem step7_of_decodePayload {text ch : Bytes} {f : Nat} {s t : State} (h : decodePayload text f ch s = .next t) :
    Step7 text f ch s t := by
  obtain ⟨r, hr, h⟩ := andThen_eq_next h
  rcases loadSlot_ends hr with ⟨hm, rfl⟩ | ⟨hm, rfl⟩
  · cases h
    rw [Step7, if_pos hm]
    exact ⟨_, rfl⟩
  simp only [withSlot_text, withSlot_fill] at h
  rw [Step7, if_neg hm]
  split
  · next hshort =>
    rw [rdu_type_of_short hshort] at h
    cases h
    exact ⟨_, rfl⟩
  next hshort =>
  cases hsym : symbolAt text 0 with
  | none =>
    rw [rdu_type_of_illegal (Nat.not_lt.1 hshort) hsym] at h
    cases h
    exact ⟨_, rfl⟩
  | some ty =>
    rw [rdu_type_of_legal (Nat.not_lt.1 hshort) hsym] at h
    have ht : t = dispatched ty ch (withSlot text f s) := by
      simp only [BitVec.ofNat_toNat, BitVec.setWidth_eq, runType_eq] at h
      exact (Host.Outcome.next.inj (whenReady_eq_next h).2).symm
    subst ht
    cases hd : dispatchTable ty with
    | none =>
      simp only [dispatched, hd]
      exact ⟨_, rfl⟩
    | some d =>
      have hq : messageModel (withSlot text f s).params (withSlot text f s).mm
          (dispatchQuery d ty ch (withSlot text f s)) = verdict s d ty text f ch := rfl
      simp only [dispatched, hd, dispatchTo, hq]
      cases verdict s d ty text f ch <;> exact ⟨_, rfl⟩

/-! ### What the report depends on -/

theorem malformed_iff (text : Bytes) (f : Nat) :
    Malformed text f ↔ 6 * text.length ≤ f ∧ ¬(text.length = 0 ∧ f = 0) := by
  rw [List.length_eq_zero_iff]

/-- The report of step 7 without its message, from all that it depends on (44 R198): what the Message Model would
answer, the length of the text, the fill, the first symbol and the channel. -/
def step7Report (ask : Decoder → Sym → Verdict) (len f : Nat) (first : Option Sym) (ch : Bytes) : Report :=
  if 6 * len ≤ f ∧ ¬(len = 0 ∧ f = 0) then ⟨.invalid, some .payload, some .malformedPayload, [], none, none, ch⟩
  else if 6 * len - f < 6 then ⟨.invalid, some .payload, some .rangeError, [], none, none, ch⟩
  else
    match first with
    | none => ⟨.invalid, some .payload, some .invalidSymbol, [], none, none, ch⟩
    | some ty =>
      match dispatchTable ty with
      | none => ⟨.unsupported, some .unsupportedType, none, [], some ty, none, ch⟩
      | some d =>
        match ask d ty with
        | .tooShort => ⟨.invalid, some .payload, some .tooShort, [], some ty, some d, ch⟩
        | .external _ => ⟨.invalid, some .payload, some .external, [], some ty, some d, ch⟩
        | .ok => ⟨.valid, none, none, [], some ty, some d, ch⟩

/-- `Wrote` with the report as a record, whose message does not count. -/
def WroteReport (s t : State) (c : Ctx) (text : Bytes) (fill : Nat) (r : Report) : Prop :=
  Wrote s t c text fill r.validity r.kind r.exc r.aisType r.decoder r.channel

theorem WroteReport.eqs {s t : State} {c : Ctx} {text : Bytes} {fill : Nat} {r : Report}
    (h : WroteReport s t c text fill r) :
    t.result.map Report.withoutMsg = some r.withoutMsg ∧ t.text = text ∧ t.fill = fill ∧ t.ctx = c := by
  obtain ⟨m, rfl⟩ := h
  exact ⟨rfl, rfl, rfl, rfl⟩

/-- Step 7 in one equation: the slot is loaded, or emptied by a malformed load, and the report is `step7Report`. -/
theorem Step7.wroteReport {s t : State} {text ch : Bytes} {f : Nat} (h : Step7 text f ch s t) :
    WroteReport s t s.ctx (if Malformed text f then [] else text) (if Malformed text f then 0 else f)
      (step7Report (verdict s · · text f ch) text.length f (symbolAt text 0) ch) := by
  rw [Step7] at h
  unfold step7Report
  simp only [← malformed_iff]
  split at h
  · next hm => simp only [if_pos hm]; exact h
  next hm =>
  simp only [if_neg hm]
  split at h
  · next hs => rw [if_pos hs]; exact h
  next hs =>
  rw [if_neg hs]
  cases hty : symbolAt text 0 with
  | none => rw [hty] at h; exact h
  | some ty =>
    rw [hty] at h
    cases hd : dispatchTable ty with
    | none => simp only [hd] at h ⊢; exact h
    | some d =>
      simp only [hd] at h ⊢
      cases hv : verdict s d ty text f ch <;> simp only [hv] at h ⊢ <;> exact h

theorem decodePayload_wroteReport {s t : State} {text ch : Bytes} {f : Nat}
    (h : decodePayload text f ch s = .next t) :
    WroteReport s t s.ctx (if Malformed text f then [] else text) (if Malformed text f then 0 else f)
      (step7Report (verdict s · · text f ch) text.length f (symbolAt text 0) ch) :=
  (step7_of_decodePayload h).wroteReport

/-- Settles O30: the report is a function of what the two texts agree on. -/
theorem decodeDependsOnFirstByte : Obligations.DecodeDependsOnFirstByte := by
  intro s t t' text text' f ch hlen hfirst hv h h'
  have hsym : symbolAt text 0 = symbolAt text' 0 := by rw [symbolAt, hfirst, symbolAt]
  rw [(decodePayload_wroteReport h).eqs.1, (decodePayload_wroteReport h').eqs.1, hlen, hsym]
  simp only [hv]

end Sys2Proof.Machine
end

section
/-! SUPPORT. The five sentence classes said once (spec/43_reassembly.md R171 to R176): which of five ends a sentence
comes to is a function of the sentence and of the context of its own identifier. A sentence reads no other context
(R178). O55, O36. -/

namespace Sys2Proof.Machine

/-! ### The ends of a sentence -/

/-- What a class of sentence does with the state. -/
inductive ClassEnd where
  /-- INVALID Sequence, every context kept -/
  | failKeeping
  /-- a Sequence failure that removes the sentence's context -/
  | failDropping (v : Validity)
  /-- INCOMPLETE, with a context written -/
  | store (next : Nat) (acc : Bytes)
  /-- step 7, every context kept -/
  | decodeKeeping (text : Bytes)
  /-- step 7 after the sentence's context is removed -/
  | decodeDropping (text : Bytes)

/-- The end a sentence comes to, by its class and the context of its identifier. -/
def classEnd (x : Fragment) (entry : Option CtxEntry) : SentenceClass → ClassEnd
  | .single => if x.index ≠ 1 then .failKeeping else .decodeKeeping x.armoured
  | .first =>
    if x.fill ≠ 0 then .failDropping .unsupported
    else
      match entry with
      | none => .store 2 x.armoured
      | some _ => .failDropping .invalid
  | .middle =>
    if x.fill ≠ 0 then .failDropping .unsupported
    else
      match entry with
      | none => .failKeeping
      | some e => if e.next ≠ x.index then .failDropping .invalid else .store (x.index + 1) (e.acc ++ x.armoured)
  | .final =>
    match entry with
    | none => .failKeeping
    | some e => if e.next ≠ x.index then .failDropping .invalid else .decodeDropping (e.acc ++ x.armoured)
  | .badseq => .failDropping .invalid

def ClassEnd.run (x : Fragment) (s : State) : ClassEnd → Outcome
  | .failKeeping => .next (fail .invalid .sequence x.channel s)
  | .failDropping v => .next (fail v .sequence x.channel (dropContext x.seqId s))
  | .store n acc => andThen (storeContext x.seqId n acc s) fun a => .next (incomplete x.channel a)
  | .decodeKeeping text => decodePayload text x.fill x.channel s
  | .decodeDropping text => decodePayload text x.fill x.channel (dropContext x.seqId s)

/-- The row of a class. -/
def classInstr (x : Fragment) : SentenceClass → Instr
  | .single => .sentSingle x
  | .first => .sentFirst x
  | .middle => .sentMiddle x
  | .final => .sentFinal x
  | .badseq => .sentBadseq x

theorem exec_classInstr (x : Fragment) (s : State) (k : SentenceClass) :
    exec (classInstr x k) s = whenReady s ((classEnd x (ctxGet x.seqId s.ctx) k).run x s) := by
  cases k with
  | single => simp only [classInstr, exec, execSentSingle, classEnd]; split <;> rfl
  | first =>
    simp only [classInstr, exec, execSentFirst, classEnd]
    split
    · rfl
    · split
      · next hlive =>
        obtain ⟨e, he⟩ := ctxHas_iff.1 hlive
        rw [he]
        rfl
      · next hlive =>
        rw [ctxHas_eq_false_iff.1 (Bool.eq_false_iff.2 hlive)]
        rfl
  | middle =>
    simp only [classInstr, exec, execSentMiddle, classEnd]
    split
    · rfl
    · cases ctxGet x.seqId s.ctx with
      | none => rfl
      | some e => simp only []; split <;> rfl
  | final =>
    simp only [classInstr, exec, execSentFinal, classEnd]
    cases ctxGet x.seqId s.ctx with
    | none => rfl
    | some e => simp only []; split <;> rfl
  | badseq => rfl

/-- The class of a converted sentence runs its row (30 R78). -/
theorem runClass_eq_exec (x : Fragment) (s : State) :
    runClass x s = exec (classInstr x (classOf x.count x.index)) s := by
  unfold runClass
  cases classOf x.count x.index <;> rfl

theorem runClass_eq (x : Fragment) (s : State) :
    runClass x s = whenReady s ((classEnd x (ctxGet x.seqId s.ctx) (classOf x.count x.index)).run x s) := by
  rw [runClass_eq_exec, exec_classInstr]

theorem runClass_eq_next {x : Fragment} {s t : State} (h : runClass x s = .next t) :
    (classEnd x (ctxGet x.seqId s.ctx) (classOf x.count x.index)).run x s = .next t := by
  rw [runClass_eq] at h
  exact (whenReady_eq_next h).2

/-! ### Two runs that agree on one context -/

/-- Two ends that agree on what a sentence with identifier `k` leaves: the report without its message, the slot, and the
context of `k`. -/
def SameEnd (k : Bytes) (t t' : State) : Prop :=
  t.result.map Report.withoutMsg = t'.result.map Report.withoutMsg ∧ t.text = t'.text ∧ t.fill = t'.fill ∧
    ctxGet k t.ctx = ctxGet k t'.ctx

theorem sameEnd_decodePayload {k text ch : Bytes} {f : Nat} {s t t' : State} {c' : Ctx}
    (hk : ctxGet k c' = ctxGet k s.ctx) (h : decodePayload text f ch s = .next t)
    (h' : decodePayload text f ch { s with ctx := c' } = .next t') : SameEnd k t t' := by
  obtain ⟨hresult, htext, hfill, hctx⟩ := (decodePayload_wroteReport h).eqs
  obtain ⟨hresult', htext', hfill', hctx'⟩ := (decodePayload_wroteReport h').eqs
  exact ⟨hresult.trans hresult'.symm, htext.trans htext'.symm, hfill.trans hfill'.symm, by rw [hctx, hctx', hk]⟩

theorem ClassEnd.run_sameEnd {a : ClassEnd} {x : Fragment} {s t t' : State} {c' : Ctx}
    (hk : ctxGet x.seqId c' = ctxGet x.seqId s.ctx) (h : a.run x s = .next t)
    (h' : a.run x { s with ctx := c' } = .next t') : SameEnd x.seqId t t' := by
  cases a with
  | failKeeping => cases h; cases h'; exact ⟨rfl, rfl, rfl, hk.symm⟩
  | failDropping v => cases h; cases h'; exact ⟨rfl, rfl, rfl, by simp⟩
  | store n acc =>
    obtain ⟨b, hb, h⟩ := andThen_eq_next h
    obtain ⟨b', hb', h'⟩ := andThen_eq_next h'
    cases h
    cases h'
    rw [storeContext_eq_next hb, storeContext_eq_next hb']
    exact ⟨rfl, rfl, rfl, by simp⟩
  | decodeKeeping text => exact sameEnd_decodePayload hk h h'
  | decodeDropping text => exact sameEnd_decodePayload (s := dropContext x.seqId s) (by simp) h h'

/-- Settles O55: the two runs come to the same end of the five, which writes no other context. -/
theorem sequencesDoNotInteract : Obligations.SequencesDoNotInteract := by
  intro s t t' c' x hk h h'
  have h' := runClass_eq_next h'
  rw [hk] at h'
  exact ClassEnd.run_sameEnd hk (runClass_eq_next h) h'

/-- Settles O36: no class looks at the count, the tag or the text after the `*`, so the outcomes are the same. -/
theorem countAndTagUnchecked : Obligations.CountAndTagUnchecked :=
  fun _ _ _ _ _ => ⟨rfl, rfl, rfl, rfl, rfl⟩

end Sys2Proof.Machine
end

section
/-! SUPPORT. Parse calls end with a result whatever the bytes, when no capacity stands in the way
(spec/42_sentence_front_end.md R151, R164). O47. -/

namespace Sys2Proof.Machine

/-! ### Without capacities every parse goes on -/

theorem loadSlot_of_fits {text : Bytes} {s : State} (h : fits s.params.textMax text.length = true) (f : Nat) :
    ∃ r, loadSlot text f s = .next r := by
  rw [loadSlot, if_pos h]
  split
  · exact ⟨_, rfl⟩
  · split
    · exact ⟨_, rfl⟩
    · exact ⟨_, rfl⟩

theorem decodePayload_of_fits {text : Bytes} {s : State} (hi : s.initialised = true)
    (h : fits s.params.textMax text.length = true) (f : Nat) (ch : Bytes) :
    ∃ t, decodePayload text f ch s = .next t := by
  obtain ⟨r, hr⟩ := loadSlot_of_fits h f
  rw [decodePayload, hr, andThen_next]
  rcases loadSlot_ends hr with ⟨-, rfl⟩ | ⟨-, rfl⟩
  · exact ⟨_, rfl⟩
  · simp only [withSlot_text, withSlot_fill]
    cases rdu text f 0 6 with
    | error e => exact ⟨_, rfl⟩
    | ok n => exact ⟨_, (runType_eq ..).trans (whenReady_ready hi _)⟩

section Unbounded

variable {s : State} (hi : s.initialised = true) (hu : Unbounded s)
include hi hu

theorem ClassEnd.run_of_unbounded (a : ClassEnd) (x : Fragment) : ∃ t, a.run x s = .next t := by
  obtain ⟨-, htext, hctx⟩ := hu
  have hfit (n : Nat) : fits s.params.textMax n = true := by rw [htext, fits_none]
  cases a with
  | failKeeping => exact ⟨_, rfl⟩
  | failDropping v => exact ⟨_, rfl⟩
  | store n acc =>
    rw [ClassEnd.run, storeContext_of_fits (hfit _) (by rw [hctx, fits_none])]
    exact ⟨_, rfl⟩
  | decodeKeeping text => exact decodePayload_of_fits hi (hfit _) ..
  | decodeDropping text => exact decodePayload_of_fits (s := dropContext x.seqId s) hi (hfit _) ..

theorem runFields_of_unbounded (own : Bool) (cnt idx k ch a f7 : Bytes) :
    ∃ t, runFields own cnt idx k ch a f7 s = .next t := by
  unfold runFields
  split
  · exact ⟨_, rfl⟩
  · rw [runClass_eq, whenReady_ready hi]
    exact ClassEnd.run_of_unbounded hi hu ..

theorem parseFields_of_unbounded (sumOk : Bool) (F : List Bytes) : ∃ t, parseFields sumOk F s = .next t := by
  unfold parseFields
  split
  · split
    · exact ⟨_, rfl⟩
    · rw [execTagAivdmAivdo, whenReady_ready hi, andThen_next]
      split
      · exact runFields_of_unbounded hi hu ..
      · exact ⟨_, rfl⟩
  · exact ⟨_, rfl⟩

end Unbounded

/-! ### What every parse call writes -/

theorem parseFields_writes {sumOk : Bool} {F : List Bytes} {s t : State} (h : parseFields sumOk F s = .next t) :
    t.result.isSome = true ∧ t.ret = .none ∧ t.draws = s.draws + 1 ∧ t.chkDefault = s.chkDefault := by
  rcases parsed_parseFields h with ⟨k, -, c, text, fill, v, kind, exc, ty, d, ch, rfl, -⟩ | rfl
  · exact ⟨rfl, rfl, rfl, rfl⟩
  · exact ⟨rfl, rfl, rfl, rfl⟩

/-- Settles O47: nothing but a capacity refuses a parse call of an initialised block, and what goes on writes a
result. -/
theorem everyParseEnds : Obligations.EveryParseEnds := by
  intro s hi hu
  have key (sumOk : Bool) (F : List Bytes) :
      ∃ t, parseFields sumOk F s = .next t ∧ t.result.isSome = true ∧ t.chkDefault = s.chkDefault := by
    obtain ⟨t, ht⟩ := parseFields_of_unbounded hi hu sumOk F
    obtain ⟨hresult, -, -, hchk⟩ := parseFields_writes ht
    exact ⟨t, ht, hresult, hchk⟩
  constructor
  · intro opt S
    rw [exec_spParse_of_fits hi (by rw [hu.1, fits_none])]
    exact key ..
  · intro L
    rw [exec, execSpParsef, whenReady_ready hi]
    exact key ..

end Sys2Proof.Machine
end

section
/-! SUPPORT. Nothing in the block reads the result back (spec/10_state.md R31): each meaning on a state with another
`RESULT` and another codec answer. O57, O58. -/

namespace Sys2Proof.Machine

/-! ### A parse does not look at what was reported -/

section Reported

variable (r : Option Report) (a : Answer) (s : State)

theorem dispatched_reported (ty : Sym) (ch : Bytes) :
    dispatched ty ch { s with result := r, ret := a } = dispatched ty ch s := by
  unfold dispatched
  cases dispatchTable ty <;> rfl

theorem runType_reported (ty : Sym) (ch : Bytes) :
    runType ty ch { s with result := r, ret := a } = runType ty ch s := by
  rw [runType_eq, runType_eq, dispatched_reported]
  rfl

theorem decodePayload_reported (text : Bytes) (f : Nat) (ch : Bytes) :
    decodePayload text f ch { s with result := r, ret := a } = decodePayload text f ch s := by
  unfold decodePayload loadSlot
  split
  · rfl
  · split
    · rfl
    · split
      · simp only [andThen_next, withSlot_text, withSlot_fill]
        cases rdu text f 0 6 with
        | error e => rfl
        | ok n => exact runType_reported r a (withSlot text f s) ..
      · rfl

theorem ClassEnd.run_reported (e : ClassEnd) (x : Fragment) :
    e.run x { s with result := r, ret := a } = e.run x s := by
  cases e with
  | failKeeping => rfl
  | failDropping v => rfl
  | store n acc =>
    simp only [ClassEnd.run, storeContext]
    split
    · rfl
    · split <;> rfl
  | decodeKeeping text => exact decodePayload_reported r a s ..
  | decodeDropping text => exact decodePayload_reported r a (dropContext x.seqId s) ..

theorem runClass_reported (x : Fragment) : runClass x { s with result := r, ret := a } = runClass x s := by
  rw [runClass_eq, runClass_eq, ClassEnd.run_reported]
  rfl

theorem parseFields_reported (sumOk : Bool) (F : List Bytes) :
    parseFields sumOk F { s with result := r, ret := a } = parseFields sumOk F s := by
  unfold parseFields
  split
  · split
    · rfl
    · simp only [execTagAivdmAivdo, whenReady]
      split
      · simp only [andThen_next]
        split
        · unfold runFields
          split
          · rfl
          · exact runClass_reported ..
        · rfl
      · rfl
  · rfl

/-- A sentence by itself ends alike. -/
theorem exec_classInstr_reported (x : Fragment) (k : SentenceClass) :
    exec (classInstr x k) { s with result := r, ret := a } = exec (classInstr x k) s := by
  rw [exec_classInstr, exec_classInstr, ClassEnd.run_reported]
  rfl

theorem exec_spParse_reported (opt : Option Bool) (S : Bytes) :
    exec (.spParse opt S) { s with result := r, ret := a } = exec (.spParse opt S) s := by
  simp only [exec, execSpParse, parseFields_reported]
  rfl

theorem exec_spParsef_reported (L : List Bytes) :
    exec (.spParsef L) { s with result := r, ret := a } = exec (.spParsef L) s := by
  simp only [exec, execSpParsef, parseFields_reported]
  rfl

end Reported

/-! ### No instruction looks at what was reported -/

theorem outcomesAgree_of_eq {o o' : Outcome} (h : o' = o) : OutcomesAgree o o' := by
  subst h
  cases o' with
  | next t => exact rfl
  | fault f => exact nomatch f
  | refused r => exact rfl

theorem outcomesAgree_whenReady {s s' : State} {o o' : Outcome} (hi : s'.initialised = s.initialised)
    (h : OutcomesAgree o o') : OutcomesAgree (whenReady s o) (whenReady s' o') := by
  rw [whenReady, whenReady, hi]
  split
  · exact h
  · exact rfl

section Reported

variable (r : Option Report) (a : Answer) (s : State)

theorem outcomesAgree_reply {α : Type} (v : Except CodecExc α) (wrap : α → CodecValue) :
    OutcomesAgree (reply v wrap s) (reply v wrap { s with result := r, ret := a }) := by
  cases v <;> exact rfl

theorem outcomesAgree_bcLoad (fill : Nat) (text : Bytes) :
    OutcomesAgree (exec (.bcLoad fill text) s) (exec (.bcLoad fill text) { s with result := r, ret := a }) := by
  refine outcomesAgree_whenReady rfl ?_
  unfold loadSlot
  split
  · exact rfl
  · split
    · exact rfl
    · split <;> exact rfl

/-- A row that a type discriminator encodes runs the dispatch case of that type (44 R193). -/
theorem exec_eq_runType {i : Instr} {ty : Sym} {ch : Bytes} (h : encode i = .typeField ty ch) (s : State) :
    exec i s = runType ty ch s := by
  cases i <;> cases h <;> rfl

theorem outcomesAgree_dispatch {i : Instr} {ty : Sym} {ch : Bytes} (h : encode i = .typeField ty ch) :
    OutcomesAgree (exec i s) (exec i { s with result := r, ret := a }) := by
  rw [exec_eq_runType h, exec_eq_runType h, runType_reported]
  exact outcomesAgree_of_eq rfl

theorem outcomesAgree_exec (i : Instr) : OutcomesAgree (exec i s) (exec i { s with result := r, ret := a }) := by
  cases i
  case spInit c => exact rfl
  case spParse opt S => exact outcomesAgree_of_eq (exec_spParse_reported ..)
  case spParsef L => exact outcomesAgree_of_eq (exec_spParsef_reported ..)
  case bcLoad fill text => exact outcomesAgree_bcLoad ..
  case bcLen => exact outcomesAgree_whenReady rfl rfl
  case bcRdu start length => exact outcomesAgree_whenReady rfl (outcomesAgree_reply ..)
  case bcRdi start length => exact outcomesAgree_whenReady rfl (outcomesAgree_reply ..)
  case bcRds start length => exact outcomesAgree_whenReady rfl (outcomesAgree_reply ..)
  case bcRdb start length => exact outcomesAgree_whenReady rfl (outcomesAgree_reply ..)
  case cmdReserved3 | cmdReserved4 | cmdReserved5 | cmdReserved6 | cmdReserved7 | cmdReservedE | cmdReservedF =>
    exact rfl
  case sentSingle x => exact outcomesAgree_of_eq (exec_classInstr_reported r a s x .single)
  case sentFirst x => exact outcomesAgree_of_eq (exec_classInstr_reported r a s x .first)
  case sentMiddle x => exact outcomesAgree_of_eq (exec_classInstr_reported r a s x .middle)
  case sentFinal x => exact outcomesAgree_of_eq (exec_classInstr_reported r a s x .final)
  case sentBadseq x => exact outcomesAgree_of_eq (exec_classInstr_reported r a s x .badseq)
  case tagAivdmAivdo own => exact outcomesAgree_whenReady rfl rfl
  all_goals exact outcomesAgree_dispatch r a s rfl

end Reported

/-- Settles O57: a parse, a sentence and a dispatch case overwrite both fields, the other instructions carry them
along, and none decides by them. -/
theorem resultNeverReadBack : Obligations.ResultNeverReadBack := by
  intro i s s' h
  rw [h]
  exact outcomesAgree_exec s'.result s'.ret s i

/-! ### Who writes the result -/

/-- A codec operation names no context. -/
theorem keyOf_of_isCodec : ∀ {i : Instr}, isCodec i = true → keyOf i = none
  | .bcLoad _ _, _ => rfl
  | .bcLen, _ => rfl
  | .bcRdu _ _, _ => rfl
  | .bcRdi _ _, _ => rfl
  | .bcRds _ _, _ => rfl
  | .bcRdb _ _, _ => rfl

theorem result_of_isCodec {i : Instr} {s t : State} (hcodec : isCodec i = true) (h : exec i s = .next t) :
    t.result = s.result := by
  cases act h with
  | init c hi ht => subst hi; cases hcodec
  | parsed k hk hp => rw [keyOf_of_isCodec hcodec] at hk; cases hk
  | short hp ht => rcases hp with ⟨_, _, rfl⟩ | ⟨_, rfl⟩ <;> cases hcodec
  | load hi text fill hslot ht => subst ht; rfl
  | ans hi v ht => subst ht; rfl
  | rse hi e ht => subst ht; rfl
  | tag own hi ht => subst ht; rfl
  | unsup ty ch hi hd ht => rw [hi, (dispInstr_kind ty ch).1] at hcodec; cases hcodec
  | sup ty ch d hi hd ht => rw [hi, (dispInstr_kind ty ch).1] at hcodec; cases hcodec

/-- Settles O58: a parse from any `RESULT` is the same parse, and writes one report. -/
theorem whoWritesResult : Obligations.WhoWritesResult := by
  intro i s t h
  refine ⟨fun hcodec => result_of_isCodec hcodec h, ?_⟩
  have key {sumOk : Bool} {F : List Bytes} (hp : parseFields sumOk F s = .next t)
      (hsame : ∀ old, exec i { s with result := old } = exec i s) :
      t.result.isSome = true ∧ t.ret = .none ∧ t.draws = s.draws + 1 ∧
        ∀ old, ∃ t', exec i { s with result := old } = .next t' ∧
          t'.result.map Report.withoutMsg = t.result.map Report.withoutMsg := by
    obtain ⟨hresult, hret, hdraws, -⟩ := parseFields_writes hp
    exact ⟨hresult, hret, hdraws, fun old => ⟨t, (hsame old).trans h, rfl⟩⟩
  rintro (⟨opt, S, rfl⟩ | ⟨L, rfl⟩)
  · obtain ⟨-, sumOk, hp⟩ := execSpParse_eq_next h
    exact key hp fun old => exec_spParse_reported old s.ret s ..
  · exact key (whenReady_eq_next h).2 fun old => exec_spParsef_reported old s.ret s ..

end Sys2Proof.Machine
end

section
/-! SUPPORT. The result word (spec/30_encoding.md R93): one number whose digits are the fields, each read back from it.
The reset (spec/42_sentence_front_end.md R150). O59, O37. -/

namespace Sys2Proof.Machine

/-! ### The word as one number -/

theorem Validity.code_lt (v : Validity) : v.code < 4 := by
  cases v <;> decide

theorem kindCode_lt (k : Option Kind) : kindCode k < 8 := by
  rcases k with _ | k
  · decide
  · cases k <;> decide

theorem causeCode_lt (c : Option Cause) : causeCode c < 8 := by
  rcases c with _ | c
  · decide
  · cases c <;> decide

/-- The number in the decoder's field: 0 when there is none. -/
def decoderField (d : Option Decoder) : Nat := d.elim 0 decoderCode

theorem decoderField_lt (d : Option Decoder) : decoderField d < 16 := by
  rcases d with _ | d
  · decide
  · cases d <;> decide

/-- The fields of the word side by side, lowest first. -/
def packedFields (validity kind exc typePresent type decoderPresent decoder : Nat) : Nat :=
  validity + 2 ^ 2 * kind + 2 ^ 5 * exc + 2 ^ 8 * typePresent + 2 ^ 9 * type + 2 ^ 15 * decoderPresent +
    2 ^ 16 * decoder

/-- Each field is a digit of the packed number. -/
theorem packedFields_digits {v k c p t q d : Nat} (hv : v < 4) (hk : k < 8) (hc : c < 8) (hp : p < 2) (ht : t < 64)
    (hq : q < 2) (hd : d < 16) :
    packedFields v k c p t q d / 2 ^ 0 % 2 ^ 2 = v ∧ packedFields v k c p t q d / 2 ^ 2 % 2 ^ 3 = k ∧
    packedFields v k c p t q d / 2 ^ 5 % 2 ^ 3 = c ∧ packedFields v k c p t q d / 2 ^ 8 % 2 = p ∧
    packedFields v k c p t q d / 2 ^ 9 % 2 ^ 6 = t ∧ packedFields v k c p t q d / 2 ^ 15 % 2 = q ∧
    packedFields v k c p t q d / 2 ^ 16 % 2 ^ 4 = d ∧ packedFields v k c p t q d / 2 ^ 20 % 2 ^ 12 = 0 := by
  unfold packedFields
  omega

theorem word_toNat (r : Report) :
    r.word.toNat = packedFields r.validity.code (kindCode r.kind) (causeCode r.exc) r.aisType.isSome.toNat
      (r.aisType.getD 0).toNat r.decoder.isSome.toNat (decoderField r.decoder) := by
  obtain ⟨v, k, c, m, ty, d, ch⟩ := r
  have hlt : packedFields v.code (kindCode k) (causeCode c) ty.isSome.toNat (ty.getD 0).toNat d.isSome.toNat
      (decoderField d) < 2 ^ 32 := by
    have hv := v.code_lt
    have hk := kindCode_lt k
    have hc := causeCode_lt c
    have hp := ty.isSome.toNat_lt
    have ht := (ty.getD 0).isLt
    have hq := d.isSome.toNat_lt
    have hd := decoderField_lt d
    unfold packedFields
    omega
  rw [← Nat.mod_eq_of_lt hlt, Report.word, BitVec.toNat_ofNat]
  congr 1
  cases ty <;> cases d <;> simp [packedFields, decoderField, Nat.add_assoc]

/-! ### Reading a field -/

/-- A field of a word is a digit of its number. -/
theorem toNat_field (w : BitVec 32) (lo len : Nat) : (w.extractLsb' lo len).toNat = w.toNat / 2 ^ lo % 2 ^ len := by
  rw [BitVec.extractLsb'_toNat, Nat.shiftRight_eq_div_pow]

/-- A bit of a word that is the digit of a truth value. -/
theorem getLsbD_of_digit {w : BitVec 32} {i : Nat} {b : Bool} (h : w.toNat / 2 ^ i % 2 = b.toNat) :
    w.getLsbD i = b := by
  rw [BitVec.getLsbD, Nat.testBit_eq_decide_div_mod_eq, h]
  cases b <;> rfl

theorem decoderField_eq (d : Option Decoder) :
    decoderField d = match d with
      | none => 0 | some .dec1to3 => 0 | some .dec4 => 1 | some .dec5 => 2 | some .dec8 => 3 | some .dec14 => 4
      | some .dec18 => 5 | some .dec19 => 6 | some .dec21 => 7 | some .dec24 => 8 | some .dec27 => 9 := by
  rcases d with _ | d
  · rfl
  · cases d <;> rfl

/-- The result word, field by field, in the model's own numbers. -/
theorem word_fields (r : Report) :
    (r.word.extractLsb' 0 2).toNat = r.validity.code ∧ (r.word.extractLsb' 2 3).toNat = kindCode r.kind ∧
    (r.word.extractLsb' 5 3).toNat = causeCode r.exc ∧ r.word.getLsbD 8 = r.aisType.isSome ∧
    r.word.extractLsb' 9 6 = r.aisType.getD 0 ∧ r.word.getLsbD 15 = r.decoder.isSome ∧
    (r.word.extractLsb' 16 4).toNat = decoderField r.decoder ∧ r.word.extractLsb' 20 12 = 0 := by
  obtain ⟨hv, hk, hc, hp, ht, hq, hd, hz⟩ := packedFields_digits r.validity.code_lt (kindCode_lt r.kind)
    (causeCode_lt r.exc) r.aisType.isSome.toNat_lt (r.aisType.getD 0).isLt r.decoder.isSome.toNat_lt
    (decoderField_lt r.decoder)
  rw [← word_toNat] at hv hk hc hp ht hq hd hz
  rw [← toNat_field] at hv hk hc ht hd hz
  exact ⟨hv, hk, hc, getLsbD_of_digit hp, BitVec.eq_of_toNat_eq ht, getLsbD_of_digit hq, hd,
    BitVec.eq_of_toNat_eq hz⟩

/-- Settles O59: the fields of the word are the digits of one number, none overlapping another. -/
theorem resultWordFields : Obligations.ResultWordFields := by
  refine ⟨fun r => ?_, fun _ => rfl, rfl, rfl, fun _ => rfl, fun s => ⟨fun h => ?_, fun r h => ?_⟩⟩
  · obtain ⟨hv, hk, hc, hp, ht, hq, hd, hz⟩ := word_fields r
    exact ⟨hv, hk, hc, hp, ht, hq, hd.trans (decoderField_eq r.decoder), hz⟩
  · rw [State.readResult, h]
  · rw [State.readResult, h]

/-! ### The reset -/

/-- Settles O37: the two words by their bits, the effect by definition. -/
theorem initResets : Obligations.InitResets := by
  intro c s
  refine ⟨?_, rfl⟩
  cases c <;> rfl

end Sys2Proof.Machine
end

section
/-! SUPPORT. What a reader fetches (spec/20_memory.md R52 to R56, spec/40_bit_codec.md R104 to R107, R119): the payload
bits of the span or the first illegal byte of it, and nothing outside the span. O12, O17, O21. -/

namespace Sys2Proof.Machine

/-! ### The fetch -/

/-- A fetch that answers found every byte legal. -/
theorem legal_of_fetch_eq_ok {text : Bytes} {k n : Nat} {vs : List Sym} (h : fetch text k n = .ok vs) :
    ∀ j, j < n → (symbolAt text (k + j)).isSome = true := by
  induction n generalizing k vs with
  | zero => exact fun j hj => absurd hj (Nat.not_lt_zero j)
  | succ n ih =>
    rw [fetch_succ, sym_eq] at h
    cases hk : symbolAt text k with
    | none => simp [hk] at h
    | some v =>
      cases hrest : fetch text (k + 1) n with
      | error e => simp [hk, hrest] at h
      | ok ws =>
        intro j hj
        cases j with
        | zero => simp [hk]
        | succ j =>
          have hj' := ih hrest j (by omega)
          rwa [Nat.add_right_comm] at hj'

/-- A fetch looks at no byte but those it answers for. -/
theorem fetch_congr {text text' : Bytes} {k n : Nat} (h : ∀ j, j < n → text[k + j]? = text'[k + j]?) :
    fetch text k n = fetch text' k n := by
  induction n generalizing k with
  | zero => rfl
  | succ n ih =>
    have hhead : sym text k = sym text' k := by
      have hk : text[k]? = text'[k]? := h 0 (by omega)
      rw [sym, sym, hk]
    have htail : fetch text (k + 1) n = fetch text' (k + 1) n := by
      refine ih fun j hj => ?_
      rw [Nat.add_right_comm]
      exact h (j + 1) (by omega)
    rw [fetch_succ, fetch_succ, hhead, htail]

/-! ### The span of a read -/

section Span

variable {text text' : Bytes} {a l : Nat}

/-- Symbol `k` belongs to the span exactly when it is one of the `symCount` symbols from `a div 6` (20 R56). -/
theorem sub_lt_symCount_iff (hl : 1 ≤ l) {k : Nat} (hk : a / 6 ≤ k) :
    k - a / 6 < symCount a l ↔ k < (a + l - 1) / 6 + 1 := by
  rw [symCount, if_neg (by omega)]
  omega

theorem add_lt_of_lt_symCount (hl : 1 ≤ l) {j : Nat} (hj : j < symCount a l) : a / 6 + j < (a + l - 1) / 6 + 1 :=
  (sub_lt_symCount_iff hl (Nat.le_add_right _ _)).1 (by rwa [Nat.add_sub_cancel_left])

/-- The symbols fetched hold all the bits that are read. -/
theorem mod_add_le_symCount (hl : 1 ≤ l) : a % 6 + l ≤ 6 * symCount a l := by
  rw [symCount, if_neg (by omega)]
  omega

/-! ### The bits of a read -/

/-- Payload bits `a` to `a + l - 1` in order (20 R52). -/
def payloadBits (text : Bytes) (a l : Nat) : List Bool := (List.range l).map fun j => payloadBit text (a + j)

@[simp] theorem payloadBits_length (text : Bytes) (a l : Nat) : (payloadBits text a l).length = l := by
  simp [payloadBits]

theorem payloadBits_add (text : Bytes) (a m n : Nat) :
    payloadBits text a (m + n) = payloadBits text a m ++ payloadBits text (a + m) n := by
  simp [payloadBits, List.range_add, Function.comp_def, Nat.add_assoc]

/-- Bit `i` of the legal symbols from `a div 6`, laid end to end, is payload bit `6 * (a div 6) + i`. -/
theorem flat_symbols_get {n i : Nat} (hi : i < 6 * n)
    (hlegal : ∀ j, j < n → (symbolAt text (a / 6 + j)).isSome = true) :
    (((List.range n).map fun j => (symbolAt text (a / 6 + j)).getD 0).flatMap symBits)[i]? =
      some (payloadBit text (6 * (a / 6) + i)) := by
  have hin : i / 6 < n := by omega
  obtain ⟨v, hv⟩ := Option.isSome_iff_exists.1 (hlegal (i / 6) hin)
  have hdiv : (6 * (a / 6) + i) / 6 = a / 6 + i / 6 := by omega
  rw [flat_get _ _ (by simpa using hi), payloadBit_eq text _ v (by rw [hdiv, hv]), Nat.mul_add_mod]
  simp [List.getD, hin, hv]

theorem readBits_of_spanLegal (hl : 1 ≤ l) (h : SpanLegal text a l) :
    readBits text a l = .ok (payloadBits text a l) := by
  have hlegal : ∀ j, j < symCount a l → (symbolAt text (a / 6 + j)).isSome = true := fun j hj =>
    h _ (add_lt_of_lt_symCount hl hj) (Nat.le_add_right _ _)
  have hroom := mod_add_le_symCount (a := a) hl
  rw [readBits, fetch_legal text _ _ hlegal]
  refine congrArg Except.ok (List.ext_getElem? fun i => ?_)
  by_cases hi : i < l
  · have ha : 6 * (a / 6) + (a % 6 + i) = a + i := by omega
    rw [List.getElem?_take_of_lt hi, List.getElem?_drop, flat_symbols_get (by omega) hlegal, ha]
    simp [payloadBits, hi]
  · rw [List.getElem?_eq_none (by simp; omega), List.getElem?_eq_none (by simp; omega)]

theorem readBits_of_firstIllegal (hl : 1 ≤ l) {k : Nat} (h : FirstIllegal text a l k) :
    readBits text a l = .error (.invalidSymbol k) := by
  obtain ⟨hfrom, hto, hk, hbefore⟩ := h
  have hadd : a / 6 + (k - a / 6) = k := by omega
  have hfetch : fetch text (a / 6) (symCount a l) = .error (.invalidSymbol (a / 6 + (k - a / 6))) :=
    fetch_illegal text _ _ _ ((sub_lt_symCount_iff hl hfrom).2 hto) (by rwa [hadd])
      fun j hj => hbefore _ (by omega) (Nat.le_add_right _ _)
  rw [readBits, hfetch, hadd]

theorem spanLegal_of_readBits_eq_ok (hl : 1 ≤ l) {bs : List Bool} (h : readBits text a l = .ok bs) :
    SpanLegal text a l := by
  intro k hto hfrom
  cases hfetch : fetch text (a / 6) (symCount a l) with
  | error e => simp [readBits, hfetch] at h
  | ok vs =>
    have hk := legal_of_fetch_eq_ok hfetch (k - a / 6) ((sub_lt_symCount_iff hl hfrom).2 hto)
    rwa [Nat.add_sub_cancel' hfrom] at hk

/-- A read of bits goes on exactly when its span is legal, and then answers the payload bits. -/
theorem readBits_eq_ok_iff (hl : 1 ≤ l) {bs : List Bool} :
    readBits text a l = .ok bs ↔ SpanLegal text a l ∧ bs = payloadBits text a l := by
  constructor
  · intro h
    have hspan := spanLegal_of_readBits_eq_ok hl h
    rw [readBits_of_spanLegal hl hspan] at h
    exact ⟨hspan, (Except.ok.inj h).symm⟩
  · rintro ⟨hspan, rfl⟩
    exact readBits_of_spanLegal hl hspan

theorem readBits_congr (hl : 1 ≤ l) (h : SameSpan text text' a l) : readBits text a l = readBits text' a l := by
  have hfetch : fetch text (a / 6) (symCount a l) = fetch text' (a / 6) (symCount a l) :=
    fetch_congr fun j hj => h _ (add_lt_of_lt_symCount hl hj) (Nat.le_add_right _ _)
  rw [readBits, readBits, hfetch]

/-- The spans of two reads, one after the other, cover the span of the read of both. -/
theorem SpanLegal.join {m n : Nat} (h : SpanLegal text a m) (h' : SpanLegal text (a + m) n) :
    SpanLegal text a (m + n) := by
  intro k hto hfrom
  by_cases hk : k < (a + m - 1) / 6 + 1
  · exact h k hk hfrom
  · exact h' k (by rwa [Nat.add_assoc]) (by omega)

end Span

/-- Settles O12: the fetch of the whole symbols, and the bits of the span taken out of them. -/
theorem readBitsArePayloadBits : Obligations.ReadBitsArePayloadBits := by
  refine ⟨fun text a l hl => ⟨readBits_of_spanLegal hl, fun k hk _ => readBits_of_firstIllegal hl hk⟩, ?_⟩
  intro text a b v hb hv
  have hsym : symbolAt text (a / 6) = some v := by simp [symbolAt, hb, hv]
  rw [payloadBit_eq text a v hsym, BitVec.getLsbD, Nat.toNat_testBit, Nat.and_one_is_mod,
    Nat.shiftRight_eq_div_pow]

/-! ### Splitting and joining -/

/-- Bits in front count `2 ^ n` times what they are worth alone, `n` bits following (20 R54). -/
theorem natOfBits_append (bs cs : List Bool) :
    natOfBits (bs ++ cs) = natOfBits bs * 2 ^ cs.length + natOfBits cs := by
  induction cs using List.reverseRecOn with
  | nil => simp [natOfBits_nil]
  | append_singleton cs b ih =>
    rw [← List.append_assoc, natOfBits_append_singleton, natOfBits_append_singleton, ih, List.length_append,
      List.length_singleton, Nat.pow_succ]
    ring

@[simp] theorem rdu_zero (text : Bytes) (fill s : Nat) : rdu text fill s 0 = .ok 0 := rfl

/-- An unsigned read goes on exactly when it passes the checks of 40 R106, and then answers the bits as a number. -/
theorem rdu_eq_ok_iff {text : Bytes} {fill s l r : Nat} (hl : 1 ≤ l) :
    rdu text fill s l = .ok r ↔
      l ≤ 31 ∧ s + l ≤ bitLen text fill ∧ SpanLegal text s l ∧ r = natOfBits (payloadBits text s l) := by
  rw [rdu, if_neg (by omega)]
  split
  · next h => exact ⟨nofun, fun h' => absurd h'.1 (by omega)⟩
  · next hmax =>
    split
    · next h => exact ⟨nofun, fun h' => absurd h'.2.1 (by omega)⟩
    · next hspan =>
      cases h : readBits text s l with
      | error e =>
        refine ⟨nofun, fun ⟨_, _, hlegal, _⟩ => ?_⟩
        rw [readBits_of_spanLegal hl hlegal] at h
        cases h
      | ok bs =>
        obtain ⟨hlegal, rfl⟩ := (readBits_eq_ok_iff hl).1 h
        refine ⟨fun hr => ⟨by omega, by omega, hlegal, (Except.ok.inj hr).symm⟩, ?_⟩
        rintro ⟨-, -, -, rfl⟩
        rfl

/-- Settles O17: a read of no bits joins as 0; otherwise the bits of the two reads, one after the other, are the bits
of the joined read. -/
theorem readsSplitAndJoin : Obligations.ReadsSplitAndJoin := by
  intro text fill s l₁ l₂ r₁ r₂ hmax h₁ h₂
  rcases Nat.eq_zero_or_pos l₁ with rfl | hl₁
  · obtain rfl : 0 = r₁ := Except.ok.inj ((rdu_zero ..).symm.trans h₁)
    simpa using h₂
  rcases Nat.eq_zero_or_pos l₂ with rfl | hl₂
  · obtain rfl : 0 = r₂ := Except.ok.inj ((rdu_zero ..).symm.trans h₂)
    simpa using h₁
  obtain ⟨-, -, hlegal₁, rfl⟩ := (rdu_eq_ok_iff hl₁).1 h₁
  obtain ⟨-, hspan, hlegal₂, rfl⟩ := (rdu_eq_ok_iff hl₂).1 h₂
  refine (rdu_eq_ok_iff (by omega)).2 ⟨hmax, by omega, hlegal₁.join hlegal₂, ?_⟩
  rw [payloadBits_add, natOfBits_append, payloadBits_length]

/-! ### Nothing outside the span -/

/-- Settles O21: both span checks pass, and every reader is a regrouping of the same bits. -/
theorem readsSeeOnlyTheirSpan : Obligations.ReadsSeeOnlyTheirSpan := by
  intro text text' fill fill' s l hl hsame hin hin'
  have hbits := readBits_congr hl hsame
  have hcheck := Nat.not_lt.2 hin
  have hcheck' := Nat.not_lt.2 hin'
  have hrdu : rdu text fill s l = rdu text' fill' s l := by
    rw [rdu, rdu, if_neg hcheck, if_neg hcheck', hbits]
  refine ⟨hrdu, ?rdi, ?rds, ?rdb⟩
  case rdi => rw [rdi, rdi, hrdu]
  case rds => rw [rds, rds, if_neg hcheck, if_neg hcheck', hbits]
  case rdb => rw [rdb, rdb, if_neg hcheck, if_neg hcheck', hbits]

end Sys2Proof.Machine
end

section
/-! SUPPORT. What a step is, by what is presented (spec/20_memory.md R61, spec/60_exceptions.md R226). O49. -/

namespace Sys2Proof.Machine

theorem step_of_nothing_presented {s : State} (h : s.input = []) : step s = .next s := by
  rw [step, h]

theorem step_of_decode_eq_ok {s : State} {x : Issue} {rest : List Issue} {i : Instr} (h : s.input = x :: rest)
    (hi : decode x = .ok i) : step s = exec i { s with input := rest } := by
  simp only [step, h, hi]

theorem step_of_decode_eq_error {s : State} {x : Issue} {rest : List Issue} {e : DecodeError}
    (h : s.input = x :: rest) (he : decode x = .error e) : step s = .refused (.undecodable e) := by
  simp only [step, h, he]

/-- Settles O49: one equation of the step for each thing that can stand first in the queue. -/
theorem stepRunsTheDecoded : Obligations.StepRunsTheDecoded :=
  fun _ _ _ => ⟨fun _ => step_of_decode_eq_ok, fun _ => step_of_decode_eq_error, step_of_nothing_presented⟩

end Sys2Proof.Machine
end

section
/-! SUPPORT. A sentence and its fields (spec/30_encoding.md R70, R71): splitting at commas and joining with commas are
inverse to one another. O9. -/

namespace Sys2Proof

@[simp] theorem split_nil : split [] = [[]] := rfl

@[simp] theorem split_comma_cons (S : Bytes) : split (comma :: S) = [] :: split S := by
  simp [split]

/-- One byte more: a comma begins a new field, any other byte lengthens the first one. -/
theorem split_cons (b : Byte) (S : Bytes) :
    ∃ f fs, split S = f :: fs ∧
      (b = comma ∧ split (b :: S) = [] :: f :: fs ∨ b ≠ comma ∧ split (b :: S) = (b :: f) :: fs) := by
  by_cases hb : b = comma
  · obtain ⟨f, fs, hS⟩ := List.exists_cons_of_ne_nil (split_ne_nil S)
    exact ⟨f, fs, hS, .inl ⟨hb, by rw [hb, split_comma_cons, hS]⟩⟩
  · obtain ⟨f, fs, hS, hbS⟩ := split_cons_ne (r := S) hb
    exact ⟨f, fs, hS, .inr ⟨hb, hbS⟩⟩

theorem joinFields_split (S : Bytes) : joinFields (split S) = S := by
  induction S with
  | nil => rfl
  | cons b S ih =>
    obtain ⟨f, fs, hS, ⟨rfl, hbS⟩ | ⟨-, hbS⟩⟩ := split_cons b S <;> rw [hS] at ih
    · rw [hbS, joinFields, ih, List.nil_append]
    · rw [hbS, joinFields_cons, ih]

theorem length_split (S : Bytes) : (split S).length = S.count comma + 1 := by
  induction S with
  | nil => rfl
  | cons b S ih =>
    obtain ⟨f, fs, hS, ⟨rfl, hbS⟩ | ⟨hb, hbS⟩⟩ := split_cons b S <;> rw [hS] at ih
    · rw [hbS, List.length_cons, ih, List.count_cons_self]
    · rw [hbS, List.length_cons, List.count_cons_of_ne hb, ← ih, List.length_cons]

theorem comma_not_mem_of_mem_split {S f : Bytes} (h : f ∈ split S) : comma ∉ f := by
  induction S generalizing f with
  | nil => simp_all
  | cons b S ih =>
    obtain ⟨g, gs, hS, ⟨-, hbS⟩ | ⟨hb, hbS⟩⟩ := split_cons b S <;> rw [hS] at ih <;> rw [hbS] at h
    · rcases List.mem_cons.1 h with rfl | h
      · exact List.not_mem_nil
      · exact ih h
    · rcases List.mem_cons.1 h with rfl | h
      · exact List.not_mem_cons_of_ne_of_not_mem hb.symm (ih List.mem_cons_self)
      · exact ih (List.mem_cons_of_mem _ h)

theorem split_append_comma {f : Bytes} (hf : comma ∉ f) (S : Bytes) : split (f ++ comma :: S) = f :: split S := by
  induction f with
  | nil => exact split_comma_cons S
  | cons b f ih =>
    obtain ⟨hb, hf⟩ := List.ne_and_not_mem_of_not_mem_cons hf
    rw [List.cons_append, split, if_neg (Ne.symm hb), ih hf]

theorem split_of_comma_not_mem {f : Bytes} (hf : comma ∉ f) : split f = [f] := by
  induction f with
  | nil => rfl
  | cons b f ih =>
    obtain ⟨hb, hf⟩ := List.ne_and_not_mem_of_not_mem_cons hf
    rw [split, if_neg (Ne.symm hb), ih hf]

theorem split_joinFields {L : List Bytes} (hne : L ≠ []) (h : ∀ f ∈ L, comma ∉ f) : split (joinFields L) = L := by
  induction L with
  | nil => exact absurd rfl hne
  | cons f L ih =>
    obtain ⟨hf, hL⟩ := List.forall_mem_cons.1 h
    cases L with
    | nil => exact split_of_comma_not_mem hf
    | cons g L => rw [joinFields, split_append_comma hf, ih (List.cons_ne_nil g L) hL]

/-- Settles O9: the split by induction on the bytes, the join by induction on the fields; the decoder takes a sentence
of seven fields alone. -/
theorem splitAtCommas : Obligations.SplitAtCommas := by
  refine ⟨fun S => ⟨joinFields_split S, length_split S, fun f => comma_not_mem_of_mem_split⟩,
    fun L => split_joinFields, fun S i h => ?_⟩
  obtain ⟨tag, cnt, idx, k, ch, a, f7, own, x, hS, -⟩ := Machine.decodeSentence_eq_ok h
  rw [hS]
  rfl

end Sys2Proof
end

section
/-! SUPPORT. Decimal numbers (spec/30_encoding.md R74): what `Dec` answers, and that the encoder's numbers convert
back. O10. -/

namespace Sys2Proof

/-- The bytes of a decimal number (R74). -/
abbrev IsDigit (b : Byte) : Prop := 48 ≤ b.toNat ∧ b.toNat ≤ 57

theorem digitValue_of_isDigit {b : Byte} (h : IsDigit b) : digitValue b = some (b.toNat - 48) :=
  if_pos h

theorem digitValue_of_not_isDigit {b : Byte} (h : ¬IsDigit b) : digitValue b = none :=
  if_neg h

theorem not_isDigit_iff {b : Byte} : ¬IsDigit b ↔ b.toNat < 48 ∨ 57 < b.toNat := by
  unfold IsDigit
  omega

@[simp] theorem decFrom_nil (acc : Nat) : decFrom acc [] = some acc := rfl

theorem decFrom_cons_of_isDigit {b : Byte} (h : IsDigit b) (acc : Nat) (s : Bytes) :
    decFrom acc (b :: s) = decFrom (acc * 10 + (b.toNat - 48)) s := by
  rw [decFrom, digitValue_of_isDigit h]

theorem decFrom_cons_of_not_isDigit {b : Byte} (h : ¬IsDigit b) (acc : Nat) (s : Bytes) :
    decFrom acc (b :: s) = none := by
  rw [decFrom, digitValue_of_not_isDigit h]

theorem decFrom_eq_none_iff {acc : Nat} {s : Bytes} : decFrom acc s = none ↔ ∃ b ∈ s, ¬IsDigit b := by
  induction s generalizing acc with
  | nil => simp
  | cons b s ih =>
    by_cases hb : IsDigit b
    · rw [decFrom_cons_of_isDigit hb, ih, List.exists_mem_cons_iff, or_iff_right (not_not.2 hb)]
    · simp only [decFrom_cons_of_not_isDigit hb, List.exists_mem_cons_iff, hb, not_false_iff, true_or]

theorem decFrom_append (acc : Nat) (s t : Bytes) :
    decFrom acc (s ++ t) = (decFrom acc s).bind fun n => decFrom n t := by
  induction s generalizing acc with
  | nil => rfl
  | cons b s ih =>
    by_cases hb : IsDigit b
    · rw [List.cons_append, decFrom_cons_of_isDigit hb, decFrom_cons_of_isDigit hb, ih]
    · rw [List.cons_append, decFrom_cons_of_not_isDigit hb, decFrom_cons_of_not_isDigit hb, Option.bind_none]

@[simp] theorem dec_nil : dec [] = none := rfl

theorem dec_of_ne_nil {s : Bytes} (h : s ≠ []) : dec s = decFrom 0 s := by
  cases s with
  | nil => exact absurd rfl h
  | cons b s => rfl

theorem dec_eq_some_iff {s : Bytes} {n : Nat} : dec s = some n ↔ s ≠ [] ∧ decFrom 0 s = some n := by
  cases s with
  | nil => simp
  | cons b s => simp [dec_of_ne_nil]

theorem dec_eq_none_iff {s : Bytes} : dec s = none ↔ s = [] ∨ ∃ b ∈ s, ¬IsDigit b := by
  cases s with
  | nil => simp
  | cons b s => rw [dec_of_ne_nil (List.cons_ne_nil b s), decFrom_eq_none_iff, or_iff_right (List.cons_ne_nil b s)]

theorem isDigit_of_dec_eq_some {s : Bytes} {n : Nat} (h : dec s = some n) : ∀ b ∈ s, IsDigit b := by
  intro b hb
  by_contra hd
  rw [dec_eq_none_iff.2 (.inr ⟨b, hb, hd⟩)] at h
  cases h

theorem dec_singleton {b : Byte} (h : IsDigit b) : dec [b] = some (b.toNat - 48) := by
  rw [dec_of_ne_nil (List.cons_ne_nil b []), decFrom_cons_of_isDigit h, decFrom_nil, Nat.zero_mul, Nat.zero_add]

theorem dec_append_digit {s : Bytes} {n : Nat} {b : Byte} (hs : dec s = some n) (hb : IsDigit b) :
    dec (s ++ [b]) = some (10 * n + (b.toNat - 48)) := by
  obtain ⟨hne, hn⟩ := dec_eq_some_iff.1 hs
  rw [dec_of_ne_nil (List.append_ne_nil_of_left_ne_nil hne [b]), decFrom_append, hn, Option.bind_some,
    decFrom_cons_of_isDigit hb, decFrom_nil, Nat.mul_comm]

theorem dec_leading_zero {s : Bytes} {n : Nat} (h : dec s = some n) : dec (0x30 :: s) = some n := by
  rw [dec_of_ne_nil (List.cons_ne_nil _ s), decFrom_cons_of_isDigit (by decide)]
  exact (dec_eq_some_iff.1 h).2

/-- Settles O10: the conversion read from the left, one equation for each further byte. -/
theorem decimalConversion : Obligations.DecimalConversion := by
  refine ⟨fun s => ?_, fun b h h' => dec_singleton ⟨h, h'⟩, fun s n b hs h h' => dec_append_digit hs ⟨h, h'⟩,
    fun s n => dec_leading_zero⟩
  simp only [dec_eq_none_iff, not_isDigit_iff]

/-! ### The encoder's numbers -/

/-- The last digit of a number, as the encoder writes it. -/
theorem toNat_digit (n : Nat) : (BitVec.ofNat 8 (48 + n % 10)).toNat = 48 + n % 10 := by
  rw [BitVec.toNat_ofNat]
  omega

theorem decFrom_digit_cons (acc n : Nat) (s : Bytes) :
    decFrom acc (BitVec.ofNat 8 (48 + n % 10) :: s) = decFrom (acc * 10 + n % 10) s := by
  have hd : IsDigit (BitVec.ofNat 8 (48 + n % 10)) := by
    rw [IsDigit, toNat_digit]
    omega
  rw [decFrom_cons_of_isDigit hd, toNat_digit, Nat.add_sub_cancel_left]

/-- Reading the digits of `n` and then the tail is reading the tail from `n`. -/
theorem decFrom_decDigits {fuel n : Nat} (h : n < fuel) (tail : Bytes) :
    decFrom 0 (decDigits fuel n tail) = decFrom n tail := by
  induction fuel generalizing n tail with
  | zero => exact absurd h (Nat.not_lt_zero n)
  | succ fuel ih =>
    rw [decDigits]
    split
    · next hn => rw [decFrom_digit_cons, Nat.zero_mul, Nat.zero_add, Nat.mod_eq_of_lt hn]
    · rw [ih (by omega), decFrom_digit_cons, Nat.div_add_mod']

theorem decDigits_cons_ne_nil (fuel n : Nat) (b : Byte) (tail : Bytes) : decDigits fuel n (b :: tail) ≠ [] := by
  induction fuel generalizing n b tail with
  | zero => exact List.cons_ne_nil b tail
  | succ fuel ih =>
    rw [decDigits]
    split
    · exact List.cons_ne_nil _ _
    · exact ih _ _ _

theorem decText_ne_nil (n : Nat) : decText n ≠ [] := by
  rw [decText, decDigits]
  split
  · exact List.cons_ne_nil _ _
  · exact decDigits_cons_ne_nil _ _ _ _

/-- `Dec` reads the number the encoder wrote. -/
@[simp] theorem dec_decText (n : Nat) : dec (decText n) = some n :=
  dec_eq_some_iff.2 ⟨decText_ne_nil n, decFrom_decDigits (Nat.lt_succ_self n) []⟩

theorem not_mem_decText {b : Byte} (h : ¬IsDigit b) (n : Nat) : b ∉ decText n :=
  fun hb => h (isDigit_of_dec_eq_some (dec_decText n) b hb)

end Sys2Proof
end

section
/-! SUPPORT. Field 7 (spec/30_encoding.md R75) and the checksum (R76): what stands before the first `*` and what after
it. O11. -/

namespace Sys2Proof

theorem bne_star_of_not_mem {f : Bytes} (h : star ∉ f) : ∀ b ∈ f, (b != star) = true :=
  fun _ hb => bne_iff_ne.2 fun e => h (e ▸ hb)

theorem fillText_append_star {pre : Bytes} (h : star ∉ pre) (post : Bytes) : fillText (pre ++ star :: post) = pre := by
  rw [fillText, List.takeWhile_append_of_pos (bne_star_of_not_mem h), List.takeWhile_cons_of_neg (by simp),
    List.append_nil]

theorem fillText_of_star_not_mem {f : Bytes} (h : star ∉ f) : fillText f = f :=
  List.takeWhile_eq_self_iff.2 (bne_star_of_not_mem h)

theorem afterStar_append_star {pre : Bytes} (h : star ∉ pre) (post : Bytes) :
    afterStar (pre ++ star :: post) = some post := by
  rw [afterStar, List.dropWhile_append_of_pos (bne_star_of_not_mem h), List.dropWhile_cons_of_neg (by simp)]

theorem afterStar_of_star_not_mem {f : Bytes} (h : star ∉ f) : afterStar f = none := by
  rw [afterStar, List.dropWhile_eq_nil_iff.2 (bne_star_of_not_mem h)]

/-- What follows the `*` is part of the field. -/
theorem mem_of_mem_afterStar {f t : Bytes} (h : afterStar f = some t) {b : Byte} (hb : b ∈ t) : b ∈ f := by
  unfold afterStar at h
  split at h
  · cases h
  · next hdrop =>
    cases h
    exact (List.dropWhile_sublist _).subset (hdrop ▸ List.mem_cons_of_mem _ hb)

end Sys2Proof

namespace Sys2Proof.Machine

theorem foldl_xor (a : Byte) (s : Bytes) : s.foldl (fun x b => x ^^^ b) a = a ^^^ xorBytes s := by
  induction s generalizing a with
  | nil => simp [xorBytes]
  | cons b s ih => rw [List.foldl_cons, ih, xorBytes, BitVec.xor_assoc]

theorem checksumSpan_eq (S : Bytes) : checksumSpan S = (fillText S).drop 1 := rfl

theorem checksumMatches_iff {S : Bytes} :
    checksumMatches S = true ↔ afterStar S = some (renderHex (xorBytes (checksumSpan S))) :=
  decide_eq_true_iff

/-- The characters of R76, written out. -/
theorem hexDigit_eq_getD : ∀ d, d < 16 → hexDigit d =
    ([0x30, 0x31, 0x32, 0x33, 0x34, 0x35, 0x36, 0x37, 0x38, 0x39, 0x41, 0x42, 0x43, 0x44, 0x45, 0x46] : Bytes).getD
      d 0 := by
  decide

/-- Settles O11: the text is cut at the first `*` in the same place by both parts of the rule. -/
theorem checksumRule : Obligations.ChecksumRule := by
  constructor
  · intro pre post hpre x H
    have hx : x = (xorBytes (pre.drop 1)).toNat :=
      congrArg BitVec.toNat ((foldl_xor 0 _).trans BitVec.zero_xor)
    have hlt : x < 256 := hx ▸ (xorBytes (pre.drop 1)).isLt
    rw [checksumMatches_iff, checksumSpan_eq]
    rw [show (0x2A : Byte) = star from rfl, afterStar_append_star hpre, fillText_append_star hpre, Option.some_inj,
      renderHex, ← hx, hexDigit_eq_getD (x / 16) (by omega), hexDigit_eq_getD (x % 16) (by omega)]
  · intro S hS
    rw [← Bool.not_eq_true, checksumMatches_iff, afterStar_of_star_not_mem hS]
    exact nofun

end Sys2Proof.Machine
end

section
/-! SUPPORT. The armour code and the six-bit alphabet (spec/30_encoding.md R80 to R82), and the sentence classes (R78).
O7, O8. -/

namespace Sys2Proof.Machine

/-- The two ranges of legal bytes. -/
theorem dearmour_of_low {b : Byte} (h : 48 ≤ b.toNat ∧ b.toNat ≤ 87) :
    dearmour b = some (BitVec.ofNat 6 (b.toNat - 48)) :=
  if_pos h

theorem dearmour_of_high {b : Byte} (h : 96 ≤ b.toNat ∧ b.toNat ≤ 119) :
    dearmour b = some (BitVec.ofNat 6 (b.toNat - 56)) := by
  rw [dearmour, if_neg (by omega), if_pos h]

theorem dearmour_of_illegal {b : Byte} (h : ¬(48 ≤ b.toNat ∧ b.toNat ≤ 87)) (h' : ¬(96 ≤ b.toNat ∧ b.toNat ≤ 119)) :
    dearmour b = none := by
  rw [dearmour, if_neg h, if_neg h']

/-- A number below 64 is one symbol and no other. -/
theorem ofNat_eq_sym_iff {n : Nat} (hn : n < 64) (v : Sym) : BitVec.ofNat 6 n = v ↔ v.toNat = n := by
  rw [← BitVec.toNat_inj, BitVec.toNat_ofNat, Nat.mod_eq_of_lt hn, eq_comm]

/-- Settles O8: the two ranges of legal bytes do not meet, and what is left is illegal. -/
theorem armourCodeAndAlphabet : Obligations.ArmourCodeAndAlphabet := by
  refine ⟨fun b v => ?code, fun b => ?illegal, fun v => ?alphabet⟩
  case code =>
    by_cases hl : 48 ≤ b.toNat ∧ b.toNat ≤ 87
    · rw [dearmour_of_low hl, Option.some_inj, ofNat_eq_sym_iff (by omega)]
      omega
    by_cases hh : 96 ≤ b.toNat ∧ b.toNat ≤ 119
    · rw [dearmour_of_high hh, Option.some_inj, ofNat_eq_sym_iff (by omega)]
      omega
    · simp only [dearmour_of_illegal hl hh, reduceCtorEq, false_iff]
      omega
  case illegal =>
    by_cases hl : 48 ≤ b.toNat ∧ b.toNat ≤ 87
    · simp only [dearmour_of_low hl, reduceCtorEq, false_iff]
      omega
    by_cases hh : 96 ≤ b.toNat ∧ b.toNat ≤ 119
    · simp only [dearmour_of_high hh, reduceCtorEq, false_iff]
      omega
    · simp only [dearmour_of_illegal hl hh, true_iff]
      omega
  case alphabet =>
    have hv : v.toNat < 64 := v.isLt
    unfold alpha
    split <;> rw [BitVec.toNat_ofNat] <;> omega

end Sys2Proof.Machine

namespace Sys2Proof

theorem classOf_of_classNumbers {k : SentenceClass} {c i : Nat} (h : classNumbers k c i = true) : classOf c i = k := by
  cases k <;> replace h := of_decide_eq_true h
  case single => rw [classOf, if_pos h]
  case badseq => rw [classOf, if_neg (by omega), if_pos (by omega)]
  case first => rw [classOf, if_neg (by omega), if_neg (by omega), if_pos h.2]
  case middle => rw [classOf, if_neg (by omega), if_neg (by omega), if_neg (by omega), if_pos h.2.2]
  case final => rw [classOf, if_neg (by omega), if_neg (by omega), if_neg (by omega), if_neg (by omega)]

theorem classNumbers_classOf (c i : Nat) : classNumbers (classOf c i) c i = true := by
  unfold classOf
  split_ifs <;> refine decide_eq_true ?_ <;> omega

/-- The class selected is the one whose row of the table holds. -/
theorem classOf_eq_iff {c i : Nat} {k : SentenceClass} : classOf c i = k ↔ classNumbers k c i = true :=
  ⟨fun h => h ▸ classNumbers_classOf c i, classOf_of_classNumbers⟩

/-- Settles O7: each clause is the row of the table. -/
theorem sentenceClasses : Obligations.SentenceClasses := by
  intro c i
  simp only [classOf_eq_iff, classNumbers, decide_eq_true_eq, and_self]

end Sys2Proof
end

section
/-! SUPPORT. Command words (spec/30_encoding.md R90 to R94): a word is the number its fields spell, so a word that
decodes is the one word of its instruction, and the reserved words have none. O4, O5. -/

namespace Sys2Proof

open Machine

/-! ### Words as numbers -/

theorem toNat_append_eq_add {m n : Nat} (x : BitVec m) (y : BitVec n) :
    (x ++ y).toNat = x.toNat * 2 ^ n + y.toNat := by
  rw [BitVec.toNat_append, ← Nat.shiftLeft_add_eq_or_of_lt y.isLt, Nat.shiftLeft_eq]

theorem toNat_cmdWord (op : BitVec 4) (len : BitVec 12) (low : BitVec 16) :
    (cmdWord op len low).toNat = op.toNat * 2 ^ 28 + len.toNat * 2 ^ 16 + low.toNat := by
  rw [cmdWord, toNat_append_eq_add, toNat_append_eq_add]
  omega

theorem toNat_getLsbD (w : CmdWord) (i : Nat) : (w.getLsbD i).toNat = w.toNat / 2 ^ i % 2 := by
  rw [BitVec.getLsbD, Nat.toNat_testBit]

/-- A field of zeros. -/
theorem field_eq_zero_iff {w : CmdWord} {lo len : Nat} :
    w.extractLsb' lo len = 0 ↔ w.toNat / 2 ^ lo % 2 ^ len = 0 := by
  rw [← toNat_field, BitVec.toNat_eq]
  rfl

/-- A word is put together from its own fields. -/
theorem cmdWord_eq {w : CmdWord} {op : BitVec 4} {len : BitVec 12} {low : BitVec 16}
    (hop : (w.extractLsb' 28 4).toNat = op.toNat) (hlen : w.extractLsb' 16 12 = len)
    (hlow : w.extractLsb' 0 16 = low) : cmdWord op len low = w := by
  have hw := w.isLt
  apply BitVec.eq_of_toNat_eq
  rw [toNat_cmdWord, ← hop, ← hlen, ← hlow, toNat_field, toNat_field, toNat_field]
  omega

/-! ### The formats -/

theorem toNat_initBit (c : Bool) : (if c then 1 else 0 : BitVec 16).toNat = c.toNat := by
  cases c <;> rfl

theorem initWord_eq {w : CmdWord} (hop : (w.extractLsb' 28 4).toNat = 0) (hz : w.extractLsb' 1 27 = 0) :
    cmdWord 0 0 (if w.getLsbD 0 then 1 else 0) = w := by
  rw [field_eq_zero_iff] at hz
  refine cmdWord_eq hop (field_eq_zero_iff.2 (by omega)) (BitVec.eq_of_toNat_eq ?_)
  rw [toNat_field, toNat_initBit, toNat_getLsbD]
  omega

/-- The option bits are read as they are written. -/
theorem toNat_optionBits_of_decodeOption {p v : Bool} {o : Option Bool} (h : decodeOption p v = .ok o) :
    (optionBits o).toNat = 2 * p.toNat + v.toNat := by
  cases p <;> cases v <;> cases h <;> rfl

theorem parseWord_eq {w : CmdWord} {o : Option Bool} (hop : (w.extractLsb' 28 4).toNat = 1)
    (hz : w.extractLsb' 2 26 = 0) (ho : decodeOption (w.getLsbD 1) (w.getLsbD 0) = .ok o) :
    cmdWord 1 0 (optionBits o) = w := by
  rw [field_eq_zero_iff] at hz
  refine cmdWord_eq hop (field_eq_zero_iff.2 (by omega)) (BitVec.eq_of_toNat_eq ?_)
  rw [toNat_field, toNat_optionBits_of_decodeOption ho, toNat_getLsbD, toNat_getLsbD]
  omega

/-- A word without operands. -/
theorem bareWord_eq {w : CmdWord} {op : BitVec 4} (hop : (w.extractLsb' 28 4).toNat = op.toNat)
    (hz : w.extractLsb' 0 28 = 0) : cmdWord op 0 0 = w := by
  rw [field_eq_zero_iff] at hz
  exact cmdWord_eq hop (field_eq_zero_iff.2 (by omega)) (field_eq_zero_iff.2 (by omega))

theorem loadWord_eq {w : CmdWord} (hop : (w.extractLsb' 28 4).toNat = 8) (hz : w.extractLsb' 16 12 = 0) :
    cmdWord 8 0 (BitVec.ofNat 16 (w.extractLsb' 0 16).toNat) = w :=
  cmdWord_eq hop hz (by rw [BitVec.ofNat_toNat, BitVec.setWidth_eq])

theorem readWord_eq {w : CmdWord} {op : BitVec 4} (hop : (w.extractLsb' 28 4).toNat = op.toNat) :
    readWord op (w.extractLsb' 0 16).toNat (w.extractLsb' 16 12).toNat = w :=
  cmdWord_eq hop (by rw [BitVec.ofNat_toNat, BitVec.setWidth_eq]) (by rw [BitVec.ofNat_toNat, BitVec.setWidth_eq])

/-- A word with a reserved operation code. -/
theorem reservedWord_eq {w : CmdWord} {op : BitVec 4} (hop : (w.extractLsb' 28 4).toNat = op.toNat) :
    op ++ w.extractLsb' 0 28 = w := by
  have hw := w.isLt
  apply BitVec.eq_of_toNat_eq
  rw [toNat_append_eq_add, ← hop, toNat_field, toNat_field]
  omega

@[simp] theorem reservedWord_op (op : BitVec 4) (r : BitVec 28) : (op ++ r).extractLsb' 28 4 = op := by
  have hop := op.isLt
  have hr := r.isLt
  apply BitVec.eq_of_toNat_eq
  rw [toNat_field, toNat_append_eq_add]
  omega

@[simp] theorem reservedWord_rest (op : BitVec 4) (r : BitVec 28) : (op ++ r).extractLsb' 0 28 = r := by
  have hr := r.isLt
  apply BitVec.eq_of_toNat_eq
  rw [toNat_field, toNat_append_eq_add]
  omega

/-! ### Reads -/

theorem portRead_fields (w : CmdWord) :
    portRead (w.extractLsb' 0 16).toNat (w.extractLsb' 16 12).toNat = true := by
  have hs := (w.extractLsb' 0 16).isLt
  have hl := (w.extractLsb' 16 12).isLt
  exact Bool.and_eq_true_iff.2 ⟨decide_eq_true hs, decide_eq_true hl⟩

/-- A read command of an operation code whose instruction is encoded with that code. -/
theorem decodeRead_eq_ok {mk : Nat → Nat → Instr} {op : BitVec 4} {w : CmdWord} {b : Bulk} {i : Instr}
    (hwf : ∀ s l, (mk s l).wf = portRead s l) (henc : ∀ s l, encode (mk s l) = .command (readWord op s l) .none)
    (hop : (w.extractLsb' 28 4).toNat = op.toNat) (h : decodeRead mk w b = .ok i) :
    i.wf = true ∧ encode i = .command w b := by
  cases b <;> cases h
  exact ⟨(hwf _ _).trans (portRead_fields w), by rw [henc, readWord_eq hop]⟩

theorem decodeRead_readWord (mk : Nat → Nat → Instr) (op : BitVec 4) {s l : Nat} (h : portRead s l = true) :
    decodeRead mk (readWord op s l) .none = .ok (mk s l) := by
  obtain ⟨hs, hl⟩ := Bool.and_eq_true_iff.1 h
  rw [decodeRead, readWord, cmdWord_low, cmdWord_len, BitVec.toNat_ofNat, BitVec.toNat_ofNat,
    Nat.mod_eq_of_lt (of_decide_eq_true hs), Nat.mod_eq_of_lt (of_decide_eq_true hl)]

/-! ### What a word decodes into -/

/-- Whatever a command word decodes into is well-formed and encodes into that word and that bulk operand. -/
theorem decodeCommand_eq_ok {w : CmdWord} {b : Bulk} {i : Instr} (h : decodeCommand w b = .ok i) :
    i.wf = true ∧ encode i = .command w b := by
  unfold decodeCommand at h
  split at h
  case h_1 hop =>
    split at h
    · next hz => cases b <;> cases h; exact ⟨rfl, congrArg (Issue.command · _) (initWord_eq hop hz)⟩
    · cases h
  case h_2 hop =>
    split at h
    · next hz =>
      split at h
      · cases h
      · next o ho => cases b <;> cases h; exact ⟨rfl, congrArg (Issue.command · _) (parseWord_eq hop hz ho)⟩
    · cases h
  case h_3 hop =>
    split at h
    · next hz => cases b <;> cases h; exact ⟨rfl, congrArg (Issue.command · _) (bareWord_eq hop hz)⟩
    · cases h
  case h_4 hop =>
    split at h
    · next hz =>
      cases b <;> cases h
      exact ⟨decide_eq_true (w.extractLsb' 0 16).isLt, congrArg (Issue.command · _) (loadWord_eq hop hz)⟩
    · cases h
  case h_5 hop =>
    split at h
    · next hz => cases b <;> cases h; exact ⟨rfl, congrArg (Issue.command · _) (bareWord_eq hop hz)⟩
    · cases h
  case h_6 hop => exact decodeRead_eq_ok (op := 0xA) (fun _ _ => rfl) (fun _ _ => rfl) hop h
  case h_7 hop => exact decodeRead_eq_ok (op := 0xB) (fun _ _ => rfl) (fun _ _ => rfl) hop h
  case h_8 hop => exact decodeRead_eq_ok (op := 0xC) (fun _ _ => rfl) (fun _ _ => rfl) hop h
  case h_9 hop => exact decodeRead_eq_ok (op := 0xD) (fun _ _ => rfl) (fun _ _ => rfl) hop h
  case h_16 =>
    have hcode := (w.extractLsb' 28 4).isLt
    have hop : (w.extractLsb' 28 4).toNat = 15 := by
      simp only [imp_false] at *
      omega
    cases h
    exact ⟨rfl, congrArg (Issue.command · b) (reservedWord_eq hop)⟩
  all_goals
    next hop =>
      cases h
      exact ⟨rfl, congrArg (Issue.command · b) (reservedWord_eq hop)⟩

/-- Settles O4: each word evaluated, the operands of any length beside it left alone. -/
theorem specWordsDecode : Obligations.SpecWordsDecode :=
  ⟨rfl, fun _ => rfl, fun _ => rfl, fun _ => rfl, fun _ => rfl, fun _ => rfl, rfl, rfl, rfl, rfl, rfl⟩

/-! ### Reserved words -/

/-- The option pattern 01. -/
theorem decodeOption_of_reserved {w : CmdWord} (h : w.extractLsb' 0 2 = 1) :
    decodeOption (w.getLsbD 1) (w.getLsbD 0) = .error .reservedOption := by
  have hnum : w.toNat / 2 ^ 0 % 2 ^ 2 = 1 := by rw [← toNat_field, h]; rfl
  have h1 : w.getLsbD 1 = false := getLsbD_of_digit (by rw [Bool.toNat_false]; omega)
  have h0 : w.getLsbD 0 = true := getLsbD_of_digit (by rw [Bool.toNat_true]; omega)
  rw [h1, h0, decodeOption]

/-- A reserved word decodes into nothing, or into a reserved row. -/
theorem decodeCommand_of_reserved {w : CmdWord} (b : Bulk) (h : ReservedCommand w) :
    (∃ e, decodeCommand w b = .error e) ∨
      ∃ i r, decodeCommand w b = .ok i ∧ ∀ s, exec i s = .refused r := by
  rcases h with hop | ⟨hop, hz⟩ | ⟨hop, hz⟩ | ⟨hop | hop, hz⟩ | ⟨hop, hz⟩
  case inl =>
    simp only [List.mem_cons, List.not_mem_nil, or_false] at hop
    rcases hop with hop | hop | hop | hop | hop | hop | hop <;>
      exact .inr ⟨_, _, by simp only [decodeCommand, hop]; rfl, fun _ => rfl⟩
  case inr.inr.inl =>
    refine .inl ?_
    by_cases hbits : w.extractLsb' 2 26 = 0
    · have hopt := decodeOption_of_reserved (hz.resolve_left (not_not.2 hbits))
      exact ⟨_, by simp only [decodeCommand, hop, if_pos hbits, hopt]; rfl⟩
    · exact ⟨_, by simp only [decodeCommand, hop, if_neg hbits]; rfl⟩
  all_goals exact .inl ⟨_, by simp only [decodeCommand, hop, if_neg hz]; rfl⟩

/-- Settles O5: a reserved word is refused by the decoder or by the row of its operation code. -/
theorem reservedCommandsAreRefused : Obligations.ReservedCommandsAreRefused := by
  refine ⟨fun s w b rest hin hw => ?_, fun r b s => ⟨rfl, rfl, rfl, rfl, rfl, rfl, rfl⟩⟩
  rcases decodeCommand_of_reserved b hw with ⟨e, he⟩ | ⟨i, r, hi, hr⟩
  · exact ⟨_, step_of_decode_eq_error hin he⟩
  · exact ⟨r, (step_of_decode_eq_ok hin hi).trans (hr _)⟩

end Sys2Proof
end

section
/-! SUPPORT. The encoder against the decoder: sentences (spec/30_encoding.md R70 to R75, R78), the tag row (R73), type
discriminators (R85) and command words (R90 to R94). O1, O2, O3. -/

namespace Sys2Proof

open Machine

/-! ### Sentences -/

theorem noComma_iff {f : Bytes} : noComma f = true ↔ comma ∉ f := by
  simp [noComma, comma]

theorem spellable_iff {x : Fragment} :
    x.spellable = true ↔ comma ∉ x.seqId ∧ comma ∉ x.channel ∧ comma ∉ x.armoured ∧ comma ∉ x.sumText.getD [] := by
  simp only [Fragment.spellable, Bool.and_eq_true, noComma_iff, and_assoc]

theorem ofClass_iff {k : SentenceClass} {x : Fragment} :
    x.ofClass k = true ↔ x.spellable = true ∧ classOf x.count x.index = k := by
  rw [Fragment.ofClass, Bool.and_eq_true, classOf_eq_iff]

/-- The instruction of a sentence is the row of its class. -/
theorem sentenceInstr_eq (x : Fragment) : sentenceInstr x = classInstr x (classOf x.count x.index) := by
  unfold sentenceInstr
  cases classOf x.count x.index <;> rfl

theorem wf_classInstr (x : Fragment) (k : SentenceClass) : (classInstr x k).wf = x.ofClass k := by
  cases k <;> rfl

theorem encode_classInstr (x : Fragment) (k : SentenceClass) :
    encode (classInstr x k) = .sentence (fragmentSentence x) := by
  cases k <;> rfl

theorem tagKind_tagText (own : Bool) : tagKind (tagText own) = some own := by
  cases own <;> rfl

theorem comma_not_mem_tagText (own : Bool) : comma ∉ tagText own := by
  cases own <;> decide

theorem comma_not_mem_decText (n : Nat) : comma ∉ decText n :=
  not_mem_decText (by decide) n

theorem star_not_mem_decText (n : Nat) : star ∉ decText n :=
  not_mem_decText (by decide) n

theorem fillText_fillField (x : Fragment) : fillText (fillField x) = decText x.fill := by
  unfold fillField
  split
  · exact fillText_of_star_not_mem (star_not_mem_decText x.fill)
  · exact fillText_append_star (star_not_mem_decText x.fill) _

theorem afterStar_fillField (x : Fragment) : afterStar (fillField x) = x.sumText := by
  unfold fillField
  split
  · next h => rw [h, afterStar_of_star_not_mem (star_not_mem_decText x.fill)]
  · next h => rw [h, afterStar_append_star (star_not_mem_decText x.fill)]

theorem comma_not_mem_fillField {x : Fragment} (h : comma ∉ x.sumText.getD []) : comma ∉ fillField x := by
  unfold fillField
  split
  · exact comma_not_mem_decText x.fill
  · next hsum =>
    rw [hsum] at h
    exact fun hc => (List.mem_append.1 hc).elim (comma_not_mem_decText x.fill)
      (List.not_mem_cons_of_ne_of_not_mem (by decide) h)

/-- The seven fields of a spellable fragment are the pieces of its sentence. -/
theorem split_fragmentSentence {x : Fragment} (h : x.spellable = true) :
    split (fragmentSentence x) = fragmentFields x := by
  obtain ⟨hk, hch, ha, hsum⟩ := spellable_iff.1 h
  apply split_joinFields (List.cons_ne_nil _ _)
  simp only [List.forall_mem_cons, List.not_mem_nil, false_imp_iff, implies_true, and_true]
  exact ⟨comma_not_mem_tagText _, comma_not_mem_decText _, comma_not_mem_decText _, hk, hch, ha,
    comma_not_mem_fillField hsum⟩

theorem convertFields_fragment (x : Fragment) :
    convertFields x.own (decText x.count) (decText x.index) x.seqId x.channel x.armoured (fillField x) = some x := by
  simp only [convertFields, fillText_fillField, afterStar_fillField, dec_decText]

/-- What the conversions give, when they succeed (42 R158). -/
theorem convertFields_eq_some {own : Bool} {cnt idx k ch a f7 : Bytes} {x : Fragment}
    (h : convertFields own cnt idx k ch a f7 = some x) :
    x.own = own ∧ x.seqId = k ∧ x.channel = ch ∧ x.armoured = a ∧ x.sumText = afterStar f7 := by
  unfold convertFields at h
  split at h
  · cases h
    exact ⟨rfl, rfl, rfl, rfl, rfl⟩
  · cases h

/-- A fragment converted from fields without commas can be spelled. -/
theorem spellable_of_convertFields {own : Bool} {cnt idx k ch a f7 : Bytes} {x : Fragment}
    (h : convertFields own cnt idx k ch a f7 = some x) (hk : comma ∉ k) (hch : comma ∉ ch) (ha : comma ∉ a)
    (hf7 : comma ∉ f7) : x.spellable = true := by
  obtain ⟨-, hseq, hchannel, harm, hsum⟩ := convertFields_eq_some h
  rw [spellable_iff, hseq, hchannel, harm, hsum]
  refine ⟨hk, hch, ha, ?_⟩
  cases hs : afterStar f7 with
  | none => exact List.not_mem_nil
  | some t => exact fun hc => hf7 (mem_of_mem_afterStar hs hc)

theorem decodeSentence_of_converted {S tag cnt idx k ch a f7 : Bytes} {own : Bool} {x : Fragment}
    (hS : split S = [tag, cnt, idx, k, ch, a, f7]) (hown : tagKind tag = some own)
    (hx : convertFields own cnt idx k ch a f7 = some x) : decodeSentence S = .ok (sentenceInstr x) := by
  simp only [decodeSentence, hS, hown, hx]

theorem decode_encode_classInstr {x : Fragment} {k : SentenceClass} (h : (classInstr x k).wf = true) :
    decode (encode (classInstr x k)) = .ok (classInstr x k) := by
  rw [wf_classInstr, ofClass_iff] at h
  obtain ⟨hspell, hclass⟩ := h
  have hdec := decodeSentence_of_converted (split_fragmentSentence hspell) (tagKind_tagText x.own)
    (convertFields_fragment x)
  rw [encode_classInstr, decode, hdec, sentenceInstr_eq, hclass]

theorem wf_of_decodeSentence {S : Bytes} {i : Instr} (h : decodeSentence S = .ok i) : i.wf = true := by
  obtain ⟨tag, cnt, idx, k, ch, a, f7, own, x, hS, -, hx, rfl⟩ := decodeSentence_eq_ok h
  have hfields (f : Bytes) (hf : f ∈ [tag, cnt, idx, k, ch, a, f7]) : comma ∉ f :=
    comma_not_mem_of_mem_split (hS ▸ hf)
  rw [sentenceInstr_eq, wf_classInstr, ofClass_iff]
  exact ⟨spellable_of_convertFields hx (hfields k (by simp)) (hfields ch (by simp)) (hfields a (by simp))
    (hfields f7 (by simp)), rfl⟩

/-! ### The tag row and type discriminators -/

/-- A word is put together from one bit and the others. -/
theorem and_not_twoPow_or {n : Nat} (w : BitVec n) (i : Nat) :
    (w &&& ~~~BitVec.twoPow n i) ||| (if w.getLsbD i then BitVec.twoPow n i else 0#n) = w := by
  rw [← BitVec.and_twoPow, ← BitVec.and_or_distrib_left, BitVec.or_comm, BitVec.or_not_self, BitVec.and_allOnes]

/-- The mask leaves bit 1 free, so it accepts two words, which that bit tells apart (R73). -/
theorem eq_of_and_tagMask_eq {w : TagWord} (h : w &&& tagMask = tagMatch) :
    w = if w.getLsbD 1 then 0x21414956444F else 0x21414956444D := by
  have hw : (w &&& tagMask) ||| (if w.getLsbD 1 then 2 else 0) = w := and_not_twoPow_or w 1
  rw [h] at hw
  rw [← hw]
  cases w.getLsbD 1 <;> rfl

theorem and_tagMask_eq_iff {w : TagWord} :
    w &&& tagMask = tagMatch ↔ ∃ own : Bool, w = if own then 0x21414956444F else 0x21414956444D := by
  refine ⟨fun h => ⟨_, eq_of_and_tagMask_eq h⟩, ?_⟩
  rintro ⟨own, rfl⟩
  cases own <;> rfl

theorem decodeTag_of_and_tagMask_eq {w : TagWord} (h : w &&& tagMask = tagMatch) :
    decodeTag w = .ok (.tagAivdmAivdo (w.getLsbD 1)) :=
  if_pos h

theorem decodeTag_eq_ok {w : TagWord} {i : Instr} (h : decodeTag w = .ok i) :
    i.wf = true ∧ encode i = .tag w := by
  by_cases hw : w &&& tagMask = tagMatch
  · rw [decodeTag_of_and_tagMask_eq hw] at h
    cases h
    exact ⟨rfl, congrArg Issue.tag (eq_of_and_tagMask_eq hw).symm⟩
  · rw [decodeTag, if_neg hw] at h
    cases h

theorem wf_encode_dispInstr (t : Sym) (ch : Bytes) :
    (dispInstr t ch).wf = true ∧ encode (dispInstr t ch) = .typeField t ch := by
  obtain ⟨⟨n, hn⟩⟩ := t
  have hn : n < 64 := hn
  interval_cases n <;> exact ⟨rfl, rfl⟩

/-! ### Command words -/

theorem decode_encode_bcLoad {fill : Nat} {text : Bytes} (h : (Instr.bcLoad fill text).wf = true) :
    decode (encode (.bcLoad fill text)) = .ok (.bcLoad fill text) := by
  have hfill : fill < 65536 := of_decide_eq_true h
  simp [encode, decode, decodeCommand, Nat.mod_eq_of_lt hfill]

theorem decodeCommand_readWord {mk : Nat → Nat → Instr} {op : BitVec 4} {s l : Nat}
    (hop : ∀ w, w.extractLsb' 28 4 = op → decodeCommand w .none = decodeRead mk w .none)
    (h : portRead s l = true) : decodeCommand (readWord op s l) .none = .ok (mk s l) :=
  (hop _ (cmdWord_op ..)).trans (decodeRead_readWord mk op h)

/-! ### The round trips -/

/-- Settles O1: a sentence through its fields, a command word through its bit fields, the other rows by evaluation. -/
theorem decodeOfEncode : Obligations.DecodeOfEncode := by
  intro i h
  cases i
  case spInit c => cases c <;> rfl
  case spParse o S => rcases o with _ | _ | _ <;> rfl
  case spParsef L => rfl
  case bcLoad fill text => exact decode_encode_bcLoad h
  case bcLen => rfl
  case bcRdu s l | bcRdi s l | bcRds s l | bcRdb s l =>
    exact decodeCommand_readWord (fun w hw => by simp only [decodeCommand, hw]; rfl) h
  case cmdReserved3 | cmdReserved4 | cmdReserved5 | cmdReserved6 | cmdReserved7 | cmdReservedE | cmdReservedF =>
    simp [encode, decode, decodeCommand]
  case sentSingle x => exact decode_encode_classInstr (k := .single) h
  case sentFirst x => exact decode_encode_classInstr (k := .first) h
  case sentMiddle x => exact decode_encode_classInstr (k := .middle) h
  case sentFinal x => exact decode_encode_classInstr (k := .final) h
  case sentBadseq x => exact decode_encode_classInstr (k := .badseq) h
  case tagAivdmAivdo own => cases own <;> rfl
  all_goals rfl

/-- Settles O2: one inversion of the decoder for each form that can be presented. -/
theorem decodedIsWellFormed : Obligations.DecodedIsWellFormed := by
  intro x i h
  cases x with
  | command w b => exact (decodeCommand_eq_ok h).1
  | sentence S => exact wf_of_decodeSentence h
  | tag w => exact (decodeTag_eq_ok h).1
  | typeField t ch => cases h; exact (wf_encode_dispInstr t ch).1

/-- Settles O3: the same inversions, which give the word back. -/
theorem encodeOfDecodedWord : Obligations.EncodeOfDecodedWord := by
  refine ⟨fun w b i h => (decodeCommand_eq_ok h).2, fun w i h => (decodeTag_eq_ok h).2, fun t ch i h => ?_⟩
  cases h
  exact (wf_encode_dispInstr t ch).2

end Sys2Proof
end

section
/-! SUPPORT. The tag test (spec/30_encoding.md R73): two byte strings, whose 48-bit readings are the two words of the
mask and match, and which no later step tells apart. O6. -/

namespace Sys2Proof

open Machine

theorem tagKind_isSome_iff {f : Bytes} : (tagKind f).isSome = true ↔ ∃ own, f = tagText own := by
  constructor
  · intro h
    unfold tagKind at h
    split at h
    · next hf => exact ⟨false, hf⟩
    · split at h
      · next hf => exact ⟨true, hf⟩
      · cases h
  · rintro ⟨own, rfl⟩
    rw [tagKind_tagText, Option.isSome_some]

/-! ### The 48-bit reading -/

theorem tagWord_append_singleton (f : Bytes) (b : Byte) :
    tagWord (f ++ [b]) = (tagWord f <<< 8) ||| b.setWidth 48 := by
  rw [tagWord, List.foldl_append, List.foldl_cons, List.foldl_nil, ← tagWord]

theorem lt_of_mem_byteDigits (f : Bytes) : ∀ d ∈ f.reverse.map BitVec.toNat, d < 256 := by
  intro d hd
  obtain ⟨b, -, rfl⟩ := List.mem_map.1 hd
  exact b.isLt

/-- Up to six bytes are the digits of their reading in base 256. -/
theorem toNat_tagWord {f : Bytes} (h : f.length ≤ 6) :
    (tagWord f).toNat = Nat.ofDigits 256 (f.reverse.map BitVec.toNat) := by
  induction f using List.reverseRecOn with
  | nil => rfl
  | append_singleton f b ih =>
    rw [List.length_append, List.length_singleton] at h
    have ih := ih (by omega)
    have hlt : (tagWord f).toNat < 256 ^ 5 := calc
      (tagWord f).toNat < 256 ^ (f.reverse.map BitVec.toNat).length :=
        ih ▸ Nat.ofDigits_lt_base_pow_length (by decide) (lt_of_mem_byteDigits f)
      _ ≤ 256 ^ 5 := Nat.pow_le_pow_right (by decide) (by rw [List.length_map, List.length_reverse]; omega)
    have hb := b.isLt
    rw [tagWord_append_singleton, BitVec.toNat_or, BitVec.toNat_shiftLeft, BitVec.toNat_setWidth,
      Nat.shiftLeft_eq, Nat.mod_eq_of_lt (by omega), Nat.mod_eq_of_lt (by omega), ← Nat.shiftLeft_eq,
      ← Nat.shiftLeft_add_eq_or_of_lt hb, Nat.shiftLeft_eq, List.reverse_append, List.reverse_singleton,
      List.singleton_append, List.map_cons, Nat.ofDigits_cons, ih]
    omega

theorem tagWord_inj {f g : Bytes} (hf : f.length = 6) (hg : g.length = 6) (h : tagWord f = tagWord g) : f = g := by
  have hdigits := congrArg BitVec.toNat h
  rw [toNat_tagWord hf.le, toNat_tagWord hg.le] at hdigits
  have hmap := Nat.ofDigits_inj_of_len_eq (by decide) (by simp [hf, hg]) (lt_of_mem_byteDigits f)
    (lt_of_mem_byteDigits g) hdigits
  exact List.reverse_injective (List.map_injective_iff.2 BitVec.toNat_injective hmap)

theorem length_tagText (own : Bool) : (tagText own).length = 6 := by
  cases own <;> rfl

theorem tagWord_tagText (own : Bool) :
    tagWord (tagText own) = if own then 0x21414956444F else 0x21414956444D := by
  cases own <;> rfl

theorem tagKind_isSome_iff_and_tagMask_eq {f : Bytes} (h : f.length = 6) :
    (tagKind f).isSome = true ↔ tagWord f &&& tagMask = tagMatch := by
  rw [tagKind_isSome_iff, and_tagMask_eq_iff]
  refine exists_congr fun own => ?_
  rw [← tagWord_tagText]
  exact ⟨congrArg tagWord, tagWord_inj h (length_tagText own)⟩

/-! ### The tag is not looked at again -/

theorem convertFields_own (own : Bool) (cnt idx k ch a f7 : Bytes) :
    convertFields own cnt idx k ch a f7 =
      (convertFields false cnt idx k ch a f7).map fun x => { x with own := own } := by
  unfold convertFields
  split <;> rfl

/-- No class looks at the tag. -/
theorem runFields_own (own : Bool) (cnt idx k ch a f7 : Bytes) (s : State) :
    runFields own cnt idx k ch a f7 s = runFields false cnt idx k ch a f7 s := by
  rw [runFields, convertFields_own, runFields]
  cases convertFields false cnt idx k ch a f7 <;> rfl

theorem parseFields_own (sumOk own : Bool) (r : List Bytes) (s : State) :
    parseFields sumOk (tagText own :: r) s = parseFields sumOk (tagText false :: r) s := by
  match r with
  | [cnt, idx, k, ch, a, f7] =>
    simp only [parseFields, tagKind_tagText, execTagAivdmAivdo]
    simp only [runFields_own own]
  | [] | [_] | [_, _] | [_, _, _] | [_, _, _, _] | [_, _, _, _, _] | _ :: _ :: _ :: _ :: _ :: _ :: _ :: _ => rfl

/-- Settles O6: the mask and match accept the readings of the two tags, and a reading of six bytes loses none. -/
theorem tagTest : Obligations.TagTest := by
  refine ⟨fun f => ?strings, fun f hf => tagKind_isSome_iff_and_tagMask_eq hf, fun w => ?words, fun sumOk r s => ?later,
    fun own s hi => whenReady_ready hi _⟩
  case strings => rw [tagKind_isSome_iff, Bool.exists_bool]; rfl
  case words =>
    constructor
    · exact fun h => ⟨_, decodeTag_of_and_tagMask_eq h, eq_of_and_tagMask_eq h⟩
    · rintro ⟨own, -, hw⟩
      exact and_tagMask_eq_iff.2 ⟨own, hw⟩
  case later => exact congrArg exceptMsg (parseFields_own sumOk true r s)

end Sys2Proof
end

section
/-! SUPPORT. The dispatch cases row by row (spec/30_encoding.md R85, spec/44_decode_dispatch.md R193 to R197): each row
is the dispatch case of its type, and `Dispatch` says which types have a decoder. O25, O26. -/

namespace Sys2Proof.Machine

theorem exec_dispInstr {s : State} (hi : s.initialised = true) (ty : Sym) (ch : Bytes) :
    exec (dispInstr ty ch) s = .next (dispatched ty ch s) := by
  rw [exec_eq_runType (wf_encode_dispInstr ty ch).2, runType_eq, whenReady_ready hi]

theorem dispatched_of_no_decoder {ty : Sym} (h : dispatchTable ty = none) (ch : Bytes) (s : State) :
    dispatched ty ch s = unsupportedType ty ch s := by
  rw [dispatched, h]

theorem dispatched_of_decoder {ty : Sym} {d : Decoder} (h : dispatchTable ty = some d) (ch : Bytes) (s : State) :
    dispatched ty ch s = dispatchTo d ty ch s := by
  rw [dispatched, h]

/-- Settles O25: every row of the list is the case of a type without a decoder. -/
theorem unsupportedTypes : Obligations.UnsupportedTypes := by
  intro row hrow ch s hi
  have hinstr : row.2 = dispInstr row.1 :=
    (List.map_inj_left (f := fun r => r.2) (g := fun r => dispInstr r.1)).1 (by rfl) row hrow
  have hno : dispatchTable row.1 = none :=
    (List.map_inj_left (f := fun r => dispatchTable r.1) (g := fun _ => none)).1 (by rfl) row hrow
  rw [hinstr, exec_dispInstr hi, dispatched_of_no_decoder hno]
  exact ⟨_, rfl, _, rfl⟩

/-- Settles O26: every row of the list is the case of a type with that decoder, which asks about the loaded slot. -/
theorem supportedTypes : Obligations.SupportedTypes := by
  intro row hrow ch s hi
  have hinstr : row.2.2 = dispInstr row.1 :=
    (List.map_inj_left (f := fun r => r.2.2) (g := fun r => dispInstr r.1)).1 (by rfl) row hrow
  have hdec : dispatchTable row.1 = some row.2.1 :=
    (List.map_inj_left (f := fun r => dispatchTable r.1) (g := fun r => some r.2.1)).1 (by rfl) row hrow
  have hasked : messageModel s.params s.mm (dispatchQuery row.2.1 row.1 ch s) =
      verdict s row.2.1 row.1 s.text s.fill ch := rfl
  rw [hinstr, exec_dispInstr hi, dispatched_of_decoder hdec, dispatchTo, hasked]
  refine ⟨_, rfl, ?_⟩
  cases verdict s row.2.1 row.1 s.text s.fill ch <;> exact ⟨_, rfl⟩

end Sys2Proof.Machine
end

section
/-! SUPPORT. The integer reads (spec/40_bit_codec.md R105 to R111): what the payload bits are worth as a number, and
the sign. O13, O14, O15. -/

namespace Sys2Proof.Machine

/-! ### Rows of bits as numbers -/

theorem natOfBits_lt (bs : List Bool) : natOfBits bs < 2 ^ bs.length := by
  induction bs using List.reverseRecOn with
  | nil => simp [natOfBits_nil]
  | append_singleton bs b ih =>
    have hb := b.toNat_lt
    rw [natOfBits_append_singleton, List.length_append, List.length_singleton, Nat.pow_succ]
    omega

theorem natOfBits_payloadBits (text : Bytes) (a l : Nat) : natOfBits (payloadBits text a l) = bitValue text a l :=
  natOfBits_range ..

theorem bitValue_lt (text : Bytes) (a l : Nat) : bitValue text a l < 2 ^ l := by
  rw [← natOfBits_payloadBits]
  exact (natOfBits_lt _).trans_eq (by rw [payloadBits_length])

/-- Two fields side by side (20 R54). -/
theorem bitValue_add (text : Bytes) (a m n : Nat) :
    bitValue text a (m + n) = bitValue text a m * 2 ^ n + bitValue text (a + m) n := by
  simp only [← natOfBits_payloadBits, payloadBits_add, natOfBits_append, payloadBits_length]

theorem bitValue_one (text : Bytes) (a : Nat) : bitValue text a 1 = (payloadBit text a).toNat := by
  simp [bitValue]

/-- The first bit of a field is the most significant. -/
theorem two_pow_le_bitValue_iff {text : Bytes} {a l : Nat} (hl : 1 ≤ l) :
    2 ^ (l - 1) ≤ bitValue text a l ↔ payloadBit text a = true := by
  obtain ⟨n, rfl⟩ := Nat.exists_eq_add_of_le hl
  have hrest := bitValue_lt text (a + 1) n
  rw [bitValue_add, bitValue_one, Nat.add_sub_cancel_left]
  cases payloadBit text a
  · simpa using hrest
  · simp

/-! ### The command words of the reads -/

/-- A read word decodes with its length and its start, when its operation code decodes as a read (30 R90). -/
theorem decode_read {mk : Nat → Nat → Instr} {op : BitVec 4}
    (hop : ∀ w, w.extractLsb' 28 4 = op → decodeCommand w .none = decodeRead mk w .none)
    (l : BitVec 12) (s : BitVec 16) : decode (.command (cmdWord op l s) .none) = .ok (mk s.toNat l.toNat) := by
  rw [decode, hop _ (cmdWord_op op l s), decodeRead, cmdWord_low, cmdWord_len]

/-! ### The unsigned read -/

section Read

variable {text : Bytes} {fill s l : Nat}

theorem rdu_of_too_long (h : 31 < l) : rdu text fill s l = .error .rangeError := by
  rw [rdu, if_neg (by omega), if_pos h]

theorem rdu_of_outside (hl : 1 ≤ l) (h : bitLen text fill < s + l) : rdu text fill s l = .error .rangeError := by
  rw [rdu, if_neg (by omega), if_pos h, ite_self]

/-- Past its checks, an unsigned read is the bits as a number (40 R107). -/
theorem rdu_of_inside (hl : 1 ≤ l) (hmax : l ≤ 31) (h : s + l ≤ bitLen text fill) :
    rdu text fill s l = (readBits text s l).map natOfBits := by
  rw [rdu, if_neg (by omega), if_neg (by omega), if_neg (by omega)]
  cases readBits text s l <;> rfl

theorem rdu_of_firstIllegal {k : Nat} (hl : 1 ≤ l) (hmax : l ≤ 31) (h : s + l ≤ bitLen text fill)
    (hk : FirstIllegal text s l k) : rdu text fill s l = .error (.invalidSymbol k) := by
  rw [rdu_of_inside hl hmax h, readBits_of_firstIllegal hl hk]
  rfl

theorem rdu_of_spanLegal (hl : 1 ≤ l) (hmax : l ≤ 31) (h : s + l ≤ bitLen text fill)
    (hlegal : SpanLegal text s l) : rdu text fill s l = .ok (bitValue text s l) :=
  (rdu_eq_ok_iff hl).2 ⟨hmax, h, hlegal, (natOfBits_payloadBits ..).symm⟩

/-- An unsigned read that goes on had a legal length, and its value fits in it. -/
theorem rdu_bounds {r : Nat} (h : rdu text fill s l = .ok r) : r < 2 ^ l ∧ l ≤ 31 := by
  rcases Nat.eq_zero_or_pos l with rfl | hl
  · cases h
    decide
  · obtain ⟨hmax, -, -, rfl⟩ := (rdu_eq_ok_iff hl).1 h
    rw [natOfBits_payloadBits]
    exact ⟨bitValue_lt text s l, hmax⟩

/-! ### The signed read -/

theorem testBit_top {n r : Nat} (hr : r < 2 ^ (n + 1)) : r.testBit n = decide (2 ^ n ≤ r) := by
  have hdiv : r / 2 ^ n < 2 := Nat.div_lt_of_lt_mul (by rwa [← Nat.pow_succ])
  rw [Nat.testBit_eq_decide_div_mod_eq, Nat.mod_eq_of_lt hdiv]
  have hpos : 1 ≤ r / 2 ^ n ↔ 2 ^ n ≤ r := by rw [Nat.le_div_iff_mul_le (Nat.two_pow_pos n), Nat.one_mul]
  exact decide_eq_decide.2 (by rw [← hpos]; omega)

/-- The two's-complement reading takes `2 ^ l` off a value whose top bit is set (40 R110). -/
theorem signedValue_eq {r : Nat} (hl : 1 ≤ l) (hr : r < 2 ^ l) :
    signedValue l r = if 2 ^ (l - 1) ≤ r then (r : Int) - 2 ^ l else r := by
  obtain ⟨n, rfl⟩ := Nat.exists_eq_add_of_le' hl
  have hand : r &&& 2 ^ n = if 2 ^ n ≤ r then 2 ^ n else 0 := by
    rw [Nat.and_two_pow, testBit_top hr]
    split <;> simp_all
  rw [signedValue, if_neg (by omega), Nat.add_sub_cancel, clearBits, hand]
  split
  · next htop =>
    rw [if_pos (Nat.two_pow_pos n).ne', Int.ofNat_sub htop, pow_succ]
    push_cast
    ring
  · rw [if_neg (not_not.2 rfl)]

theorem rdi_eq_map : rdi text fill s l = (rdu text fill s l).map (signedValue l) := by
  rw [rdi]
  cases rdu text fill s l <;> rfl

theorem rdi_eq_error_iff {e : CodecExc} : rdi text fill s l = .error e ↔ rdu text fill s l = .error e := by
  rw [rdi_eq_map]
  cases rdu text fill s l <;> simp [Except.map]

/-- A signed read that goes on is the sign reinterpretation of the unsigned one. -/
theorem rdi_eq_ok_iff {z : Int} :
    rdi text fill s l = .ok z ↔ ∃ r, rdu text fill s l = .ok r ∧ z = signedValue l r := by
  rw [rdi_eq_map]
  cases rdu text fill s l <;> simp [Except.map, eq_comm]

end Read

/-! ### The operations -/

/-- Settles O13: one equation of the unsigned read for each outcome of its checks. -/
theorem readUnsigned : Obligations.ReadUnsigned := by
  refine ⟨decode_read fun w hw => by simp only [decodeCommand, hw]; rfl, fun st s l hi => ?_⟩
  have run {r} (h : rdu st.text st.fill s l = r) : exec (.bcRdu s l) st = reply r .nat st :=
    h ▸ whenReady_ready hi _
  refine ⟨fun hzero => ?_, fun hmax => run (rdu_of_too_long hmax), fun hl _ hout => run (rdu_of_outside hl hout),
    fun k hl hmax hin hk => run (rdu_of_firstIllegal hl hmax hin hk),
    fun hl hmax hin hlegal => run (rdu_of_spanLegal hl hmax hin hlegal)⟩
  subst hzero
  exact run (rdu_zero ..)

/-- Settles O14: the checks are those of the unsigned read, the sign is the first bit of the field. -/
theorem readSigned : Obligations.ReadSigned := by
  refine ⟨decode_read fun w hw => by simp only [decodeCommand, hw]; rfl, fun st s l hi => ?_⟩
  have run {r} (h : rdi st.text st.fill s l = r) : exec (.bcRdi s l) st = reply r .int st :=
    h ▸ whenReady_ready hi _
  refine ⟨fun hzero => ?zero, fun hmax => run (rdi_eq_error_iff.2 (rdu_of_too_long hmax)),
    fun hl _ hout => run (rdi_eq_error_iff.2 (rdu_of_outside hl hout)),
    fun k hl hmax hin hk => run (rdi_eq_error_iff.2 (rdu_of_firstIllegal hl hmax hin hk)),
    fun hl hmax hin hlegal => ?value⟩
  case zero =>
    subst hzero
    exact run (rdi_eq_ok_iff.2 ⟨0, rdu_zero .., rfl⟩)
  case value =>
    rw [run (rdi_eq_ok_iff.2 ⟨_, rdu_of_spanLegal hl hmax hin hlegal, rfl⟩), signedValue_eq hl (bitValue_lt ..)]
    simp only [two_pow_le_bitValue_iff hl]
    rfl

/-- Settles O15: the two values differ by `2 ^ l` or not at all. -/
theorem integerReadersAgree : Obligations.IntegerReadersAgree := by
  intro text fill s l
  refine ⟨fun e => rdi_eq_error_iff.symm, fun r z hr hz => ?_⟩
  obtain ⟨r', hr', rfl⟩ := rdi_eq_ok_iff.1 hz
  obtain rfl : r = r' := Except.ok.inj (hr.symm.trans hr')
  rcases Nat.eq_zero_or_pos l with rfl | hl
  · obtain rfl : 0 = r := Except.ok.inj hr
    decide
  have hlt := (rdu_bounds hr).1
  have hmod : (r : Int) = r % 2 ^ l := (Int.emod_eq_of_lt (Int.natCast_nonneg r) (by exact_mod_cast hlt)).symm
  rw [signedValue_eq hl hlt]
  split
  · next htop => exact ⟨by rwa [Int.sub_emod_right], fun hlow => absurd htop (Nat.not_le.2 hlow)⟩
  · exact ⟨hmod, fun _ => rfl⟩

end Sys2Proof.Machine
end

section
/-! SUPPORT. The string and buffer reads (spec/40_bit_codec.md R112 to R118): the same payload bits, regrouped. O16,
O19, O20. -/

namespace Sys2Proof.Machine

/-! ### Regrouping -/

theorem payloadBits_take (text : Bytes) (a l n : Nat) :
    (payloadBits text a l).take n = payloadBits text a (min n l) := by
  rw [payloadBits, ← List.map_take, List.take_range, payloadBits]

theorem payloadBits_drop (text : Bytes) (a l n : Nat) :
    (payloadBits text a l).drop n = payloadBits text (a + n) (l - n) := by
  rcases Nat.le_total n l with h | h
  · rw [← Nat.add_sub_cancel' h, payloadBits_add, List.drop_left' (payloadBits_length ..), Nat.add_sub_cancel_left]
  · rw [List.drop_eq_nil_of_le (by rwa [payloadBits_length]), Nat.sub_eq_zero_of_le h]
    rfl

/-- The groups of a row of payload bits are rows of payload bits, the last one cut off where the row ends. -/
theorem groups_payloadBits (text : Bytes) (n m a l : Nat) :
    groups n m (payloadBits text a l) =
      (List.range m).map fun i => payloadBits text (a + n * i) (min n (l - n * i)) := by
  induction m generalizing a l with
  | zero => rfl
  | succ m ih =>
    rw [groups, payloadBits_take, payloadBits_drop, ih, List.range_succ_eq_map, List.map_cons, List.map_map]
    simp [Function.comp_def, Nat.mul_succ, Nat.add_assoc, Nat.sub_sub, Nat.add_comm n]

theorem groups_length (n m : Nat) (bs : List Bool) : (groups n m bs).length = m := by
  induction m generalizing bs with
  | zero => rfl
  | succ m ih => rw [groups, List.length_cons, ih]

/-! ### The string read -/

section Read

variable {text : Bytes} {fill s l : Nat}

theorem rds_of_bad_length (h : l = 0 ∨ l % 6 ≠ 0) : rds text fill s l = .error .rangeError :=
  if_pos h

theorem rds_of_outside (h : bitLen text fill < s + l) : rds text fill s l = .error .rangeError := by
  rw [rds, if_pos h, ite_self]

/-- Past its checks, a string read is the alphabet's entries for the bits in groups of six (40 R113). -/
theorem rds_of_inside (hl : 1 ≤ l) (hmod : l % 6 = 0) (h : s + l ≤ bitLen text fill) :
    rds text fill s l = (readBits text s l).map fun bs => (groups 6 (l / 6) bs).map charOfBits := by
  rw [rds, if_neg (by omega), if_neg (by omega)]
  cases readBits text s l <;> rfl

theorem rds_of_firstIllegal {k : Nat} (hl : 1 ≤ l) (hmod : l % 6 = 0) (h : s + l ≤ bitLen text fill)
    (hk : FirstIllegal text s l k) : rds text fill s l = .error (.invalidSymbol k) := by
  rw [rds_of_inside hl hmod h, readBits_of_firstIllegal hl hk]
  rfl

theorem charOfBits_payloadBits (text : Bytes) (a : Nat) :
    charOfBits (payloadBits text a 6) = alpha (BitVec.ofNat 6 (bitValue text a 6)) := by
  rw [charOfBits, natOfBits_payloadBits]

theorem rds_of_spanLegal (hl : 1 ≤ l) (hmod : l % 6 = 0) (h : s + l ≤ bitLen text fill)
    (hlegal : SpanLegal text s l) :
    rds text fill s l =
      .ok ((List.range (l / 6)).map fun j => alpha (BitVec.ofNat 6 (bitValue text (s + 6 * j) 6))) := by
  rw [rds_of_inside hl hmod h, readBits_of_spanLegal hl hlegal, Except.map, groups_payloadBits, List.map_map]
  refine congrArg Except.ok (List.map_congr_left fun j hj => ?_)
  have hj : j < l / 6 := List.mem_range.1 hj
  have hwhole : min 6 (l - 6 * j) = 6 := by omega
  rw [Function.comp_apply, hwhole, charOfBits_payloadBits]

/-- A string read that goes on answers characters of its groups. -/
theorem rds_eq_ok {r : Bytes} (h : rds text fill s l = .ok r) :
    ∃ bs, r = (groups 6 (l / 6) bs).map charOfBits := by
  unfold rds at h
  split at h
  · cases h
  split at h
  · cases h
  split at h
  · cases h
  · next bs _ => exact ⟨bs, (Except.ok.inj h).symm⟩

/-- The characters of the six-bit alphabet (30 R82). -/
theorem alpha_bounds (v : Sym) : 0x20 ≤ (alpha v).toNat ∧ (alpha v).toNat ≤ 0x5F := by
  have hv : v.toNat < 64 := v.isLt
  obtain ⟨hlow, hhigh⟩ := armourCodeAndAlphabet.2.2 v
  rcases Nat.lt_or_ge v.toNat 32 with h | h
  · rw [hlow (by omega)]
    omega
  · rw [hhigh h]
    omega

/-! ### The buffer read -/

theorem rdb_of_outside (h : bitLen text fill < s + l) : rdb text fill s l = .error .rangeError :=
  if_pos h

theorem rdb_zero (h : s ≤ bitLen text fill) : rdb text fill s 0 = .ok [] := by
  rw [rdb, Nat.add_zero, if_neg (Nat.not_lt.2 h), if_pos rfl]

/-- Past its checks, a buffer read is the bits in groups of eight (40 R116). -/
theorem rdb_of_inside (hl : 1 ≤ l) (h : s + l ≤ bitLen text fill) :
    rdb text fill s l = (readBits text s l).map fun bs => (groups 8 ((l + 7) / 8) bs).map byteOfBits := by
  rw [rdb, if_neg (by omega), if_neg (by omega)]
  cases readBits text s l <;> rfl

theorem rdb_of_firstIllegal {k : Nat} (hl : 1 ≤ l) (h : s + l ≤ bitLen text fill)
    (hk : FirstIllegal text s l k) : rdb text fill s l = .error (.invalidSymbol k) := by
  rw [rdb_of_inside hl h, readBits_of_firstIllegal hl hk]
  rfl

theorem natOfBits_replicate_false (n : Nat) : natOfBits (List.replicate n false) = 0 := by
  induction n with
  | zero => rfl
  | succ n ih => rw [List.replicate_succ', natOfBits_append_singleton, ih, Bool.toNat_false]

/-- Missing low bits count as bits that are 0: up to `m` bits, padded to `m`. -/
theorem natOfBits_payloadBits_padded {n m : Nat} (h : n ≤ m) (text : Bytes) (a : Nat) :
    natOfBits (payloadBits text a n) * 2 ^ (m - n) =
      natOfBits ((List.range m).map fun b => decide (b < n) && payloadBit text (a + b)) := by
  obtain ⟨k, rfl⟩ := Nat.exists_eq_add_of_le h
  have hbits : ((List.range (n + k)).map fun b => decide (b < n) && payloadBit text (a + b)) =
      payloadBits text a n ++ List.replicate k false := by
    rw [List.range_add, List.map_append, List.map_map]
    congr 1
    · exact List.map_congr_left fun b hb => by simp [List.mem_range.1 hb]
    · simp [Function.comp_def]
  rw [hbits, natOfBits_append, natOfBits_replicate_false, List.length_replicate, Nat.add_sub_cancel_left,
    Nat.add_zero]

theorem byteOfBits_payloadBits (text : Bytes) (a l i : Nat) :
    byteOfBits (payloadBits text (a + 8 * i) (min 8 (l - 8 * i))) = BitVec.ofNat 8 (bufferByte text a l i) := by
  rw [byteOfBits, payloadBits_length, natOfBits_payloadBits_padded (Nat.min_le_left ..), natOfBits_range, bufferByte]
  refine congrArg (fun bits => BitVec.ofNat 8 (List.sum bits)) (List.map_congr_left fun b hb => ?_)
  have hb : b < 8 := List.mem_range.1 hb
  have hlt : b < min 8 (l - 8 * i) ↔ 8 * i + b < l := by omega
  simp only [hlt]
  split <;> simp_all

theorem rdb_of_spanLegal (hl : 1 ≤ l) (h : s + l ≤ bitLen text fill) (hlegal : SpanLegal text s l) :
    rdb text fill s l =
      .ok ((List.range ((l + 7) / 8)).map fun i => BitVec.ofNat 8 (bufferByte text s l i)) := by
  rw [rdb_of_inside hl h, readBits_of_spanLegal hl hlegal, Except.map, groups_payloadBits, List.map_map]
  exact congrArg Except.ok (List.map_congr_left fun i _ => byteOfBits_payloadBits text s l i)

end Read

/-! ### The operations -/

/-- Settles O16: an unsigned value has `l` bits, a signed one is that or `2 ^ l` less, a string is characters of the
alphabet. -/
theorem readBounds : Obligations.ReadBounds := by
  intro text fill s l
  refine ⟨fun r => rdu_bounds, fun z hl hz => ?signed, fun r hr => ?string⟩
  case signed =>
    obtain ⟨r, hr, rfl⟩ := rdi_eq_ok_iff.1 hz
    obtain ⟨n, rfl⟩ := Nat.exists_eq_add_of_le' hl
    have hlt := (rdu_bounds hr).1
    rw [signedValue_eq hl hlt, Nat.add_sub_cancel]
    rw [pow_succ] at hlt ⊢
    have hcast : ((2 ^ n : Nat) : Int) = 2 ^ n := by push_cast; rfl
    split <;> omega
  case string =>
    obtain ⟨bs, rfl⟩ := rds_eq_ok hr
    refine ⟨by rw [List.length_map, groups_length], fun b hb => ?_⟩
    obtain ⟨g, -, rfl⟩ := List.mem_map.1 hb
    exact alpha_bounds _

/-- Settles O19: one equation of the string read for each outcome of its checks. -/
theorem readString : Obligations.ReadString := by
  refine ⟨decode_read fun w hw => by simp only [decodeCommand, hw]; rfl, fun st s l hi => ?_⟩
  have run {r} (h : rds st.text st.fill s l = r) : exec (.bcRds s l) st = reply r .string st :=
    h ▸ whenReady_ready hi _
  exact ⟨fun hbad => run (rds_of_bad_length hbad), fun _ _ hout => run (rds_of_outside hout),
    fun k hl hmod hin hk => run (rds_of_firstIllegal hl hmod hin hk),
    fun hl hmod hin hlegal => run (rds_of_spanLegal hl hmod hin hlegal)⟩

/-- Settles O20: one equation of the buffer read for each outcome of its checks. -/
theorem readBuffer : Obligations.ReadBuffer := by
  refine ⟨decode_read fun w hw => by simp only [decodeCommand, hw]; rfl, fun st s l hi => ?_⟩
  have run {r} (h : rdb st.text st.fill s l = r) : exec (.bcRdb s l) st = reply r .buffer st :=
    h ▸ whenReady_ready hi _
  refine ⟨fun hout => run (rdb_of_outside hout), fun hzero hin => ?_,
    fun k hl hin hk => run (rdb_of_firstIllegal hl hin hk),
    fun hl hin hlegal => run (rdb_of_spanLegal hl hin hlegal)⟩
  subst hzero
  exact run (rdb_zero hin)

end Sys2Proof.Machine
end

section
/-! SUPPORT. The shifting algorithm of `BC.RDU` (spec/40_bit_codec.md R108): the accumulator is the number of the bits
gathered so far. O18. -/

namespace Sys2Proof.Machine

/-! ### Shifts and masks on rows of bits -/

/-- A shift right leaves out bits at the end, a mask leaves out bits at the front. -/
theorem natOfBits_div_mod (bs : List Bool) (n : Nat) :
    natOfBits bs / 2 ^ (bs.length - n) = natOfBits (bs.take n) ∧
      natOfBits bs % 2 ^ (bs.length - n) = natOfBits (bs.drop n) := by
  have hlt := natOfBits_lt (bs.drop n)
  have hbs := natOfBits_append (bs.take n) (bs.drop n)
  rw [List.take_append_drop, List.length_drop] at hbs
  rw [List.length_drop] at hlt
  refine (Nat.div_mod_unique (Nat.two_pow_pos _)).2 ⟨?_, hlt⟩
  rw [hbs, Nat.mul_comm, Nat.add_comm]

theorem natOfBits_shiftRight (bs : List Bool) (n : Nat) :
    natOfBits bs >>> (bs.length - n) = natOfBits (bs.take n) := by
  rw [Nat.shiftRight_eq_div_pow, (natOfBits_div_mod bs n).1]

/-- The mask of the first symbol leaves out the bits in front of the read. -/
theorem masked_symbol (v : Sym) (n : Nat) :
    v.toNat &&& (2 ^ (6 - n) - 1) = natOfBits ((symBits v).drop n) := by
  rw [← (natOfBits_div_mod (symBits v) n).2, natOfBits_symBits, symBits_length, Nat.and_two_pow_sub_one_eq_mod]

/-- Shifting the accumulator left 6 and putting in a symbol appends its six bits. -/
theorem natOfBits_append_symbol (bs : List Bool) (v : Sym) :
    (natOfBits bs <<< 6) ||| v.toNat = natOfBits (bs ++ symBits v) := by
  rw [natOfBits_append, natOfBits_symBits, symBits_length, ← Nat.shiftLeft_add_eq_or_of_lt v.isLt, Nat.shiftLeft_eq]

/-! ### The loop -/

/-- How many more symbols the loop fetches once it has `got` bits of `l`. -/
def moreSymbols (l got : Nat) : Nat := (l - got + 5) / 6

theorem moreSymbols_of_le {l got : Nat} (h : l ≤ got) : moreSymbols l got = 0 := by
  unfold moreSymbols
  omega

theorem moreSymbols_of_lt {l got : Nat} (h : got < l) : moreSymbols l got = moreSymbols l (got + 6) + 1 := by
  unfold moreSymbols
  omega

/-- A read fetches its first symbol and then what the loop fetches. -/
theorem symCount_eq {s l : Nat} (hl : 1 ≤ l) : symCount s l = moreSymbols l (6 - s % 6) + 1 := by
  rw [symCount, if_neg (by omega), moreSymbols]
  omega

/-- The loop stops less than a symbol past the read. -/
theorem add_moreSymbols_le {l got : Nat} (hgot : got ≤ l + 5) : got + 6 * moreSymbols l got ≤ l + 5 := by
  unfold moreSymbols
  omega

/-- The loop's two registers, for a row of bits gathered: the accumulator and the count. -/
def gathered (bs : List Bool) : Nat × Nat := (natOfBits bs, bs.length)

/-- The loop gathers the bits of the symbols it fetches. -/
theorem shiftLoop_eq (text : Bytes) {l fuel k : Nat} {bs : List Bool} (hfuel : moreSymbols l bs.length ≤ fuel) :
    shiftLoop text l fuel (natOfBits bs) bs.length k =
      (fetch text k (moreSymbols l bs.length)).map fun vs => gathered (bs ++ vs.flatMap symBits) := by
  induction fuel generalizing k bs with
  | zero =>
    rw [Nat.le_zero.1 hfuel, shiftLoop, fetch, Except.map, List.flatMap_nil, List.append_nil, gathered]
  | succ fuel ih =>
    rw [shiftLoop]
    split
    · next hmore =>
      rw [moreSymbols_of_lt hmore] at hfuel ⊢
      rw [fetch_succ]
      cases sym text k with
      | error e => rfl
      | ok v =>
        have hlen : (bs ++ symBits v).length = bs.length + 6 := by rw [List.length_append, symBits_length]
        simp only [natOfBits_append_symbol, ← hlen]
        rw [ih (by rw [hlen]; omega)]
        cases fetch text (k + 1) (moreSymbols l (bs ++ symBits v).length) with
        | error e => rfl
        | ok vs => rw [Except.map, Except.map, List.flatMap_cons, List.append_assoc]
    · next hdone =>
      rw [moreSymbols_of_le (Nat.not_lt.1 hdone), fetch, Except.map, List.flatMap_nil, List.append_nil, gathered]

/-- The loop as the algorithm starts it, after the first symbol. -/
theorem shiftLoop_first (text : Bytes) {s l : Nat} (hl : 1 ≤ l) (v : Sym) (k : Nat) :
    shiftLoop text l l (v.toNat &&& (2 ^ (6 - s % 6) - 1)) (6 - s % 6) k =
      (fetch text k (moreSymbols l (6 - s % 6))).map fun vs =>
        gathered ((symBits v).drop (s % 6) ++ vs.flatMap symBits) := by
  have hlen : ((symBits v).drop (s % 6)).length = 6 - s % 6 := by rw [List.length_drop, symBits_length]
  have hfuel : moreSymbols l (6 - s % 6) ≤ l := by
    unfold moreSymbols
    omega
  have hloop := shiftLoop_eq text (k := k) (hlen.symm ▸ hfuel)
  rwa [hlen, ← masked_symbol] at hloop

/-- What the loop has when it stops: bits, at most `l + 5` of them. -/
theorem shiftLoop_eq_ok {text : Bytes} {s l k acc got : Nat} {v : Sym} (hl : 1 ≤ l)
    (h : shiftLoop text l l (v.toNat &&& (2 ^ (6 - s % 6) - 1)) (6 - s % 6) k = .ok (acc, got)) :
    ∃ bs, (acc, got) = gathered bs ∧ bs.length ≤ l + 5 := by
  rw [shiftLoop_first text hl] at h
  cases hfetch : fetch text k (moreSymbols l (6 - s % 6)) with
  | error e => rw [hfetch] at h; cases h
  | ok vs =>
    rw [hfetch] at h
    refine ⟨_, (Except.ok.inj h).symm, ?_⟩
    rw [List.length_append, List.length_drop, symBits_length, flat_length, fetch_length hfetch]
    exact add_moreSymbols_le (by omega)

/-! ### The algorithm -/

/-- The algorithm reads the payload bits as a number, and raises where the fetch raises. -/
theorem rduByShifting_eq (text : Bytes) {s l : Nat} (hl : 1 ≤ l) :
    rduByShifting text s l = (readBits text s l).map natOfBits := by
  rw [rduByShifting, readBits, symCount_eq hl, fetch_succ]
  cases sym text (s / 6) with
  | error e => rfl
  | ok v =>
    simp only [shiftLoop_first text hl]
    cases fetch text (s / 6 + 1) (moreSymbols l (6 - s % 6)) with
    | error e => rfl
    | ok vs =>
      have hdrop : s % 6 ≤ (symBits v).length := by rw [symBits_length]; omega
      simp only [Except.map, gathered, natOfBits_shiftRight, List.flatMap_cons, List.drop_append_of_le_length hdrop]

/-- Settles O18: the accumulator holds the payload bits of the read and those that follow in the last symbol. -/
theorem shiftingAlgorithmRefines : Obligations.ShiftingAlgorithmRefines := by
  constructor
  · intro text fill s l hl hmax hin
    rw [rduByShifting_eq text hl, rdu_of_inside hl hmax hin]
  · intro text s l acc got v hl hmax h
    obtain ⟨bs, hbs, hlen⟩ := shiftLoop_eq_ok hl h
    obtain ⟨rfl, rfl⟩ := Prod.mk.inj hbs
    have hacc := natOfBits_lt bs
    exact ⟨hlen, hacc, hacc.trans_le (Nat.pow_le_pow_right (by decide) (by omega))⟩

end Sys2Proof.Machine
end

section
/-! SUPPORT. The load of the slot and its length (spec/40_bit_codec.md R101, R102). O22, O23. -/

namespace Sys2Proof.Machine

theorem loadSlot_empty (s : State) : loadSlot [] 0 s = .next (.ok (emptySlot s)) := rfl

theorem loadSlot_of_malformed {text : Bytes} {fill : Nat} (h : Malformed text fill) (s : State) :
    loadSlot text fill s = .next (.error .malformedPayload) := by
  rw [loadSlot, if_neg h.2, if_pos h.1]

theorem loadSlot_of_wellFormed {text : Bytes} {fill : Nat} {s : State} (h : fill < 6 * text.length)
    (hfit : fits s.params.textMax text.length = true) : loadSlot text fill s = .next (.ok (withSlot text fill s)) := by
  have hne : ¬(text = [] ∧ fill = 0) := by rintro ⟨rfl, -⟩; simp at h
  rw [loadSlot, if_neg hne, if_neg (Nat.not_le.2 h), if_pos hfit]

theorem decode_loadWord (fill : BitVec 16) (text : Bytes) :
    decode (.command (cmdWord 0x8 0 fill) (.text text)) = .ok (.bcLoad fill.toNat text) := by
  simp [decode, decodeCommand]

theorem exec_bcLoad_of_loaded {text : Bytes} {fill : Nat} {s s' : State} (hi : s.initialised = true)
    (h : loadSlot text fill s = .next (.ok s')) : exec (.bcLoad fill text) s = .next (answer .done s') := by
  rw [exec, execBcLoad, whenReady_ready hi, h, andThen_next]

theorem exec_bcLoad_of_raised {text : Bytes} {fill : Nat} {s : State} {e : CodecExc} (hi : s.initialised = true)
    (h : loadSlot text fill s = .next (.error e)) : exec (.bcLoad fill text) s = .next (raise e s) := by
  rw [exec, execBcLoad, whenReady_ready hi, h, andThen_next]

/-- Settles O22: one equation of the load for each of its ends. -/
theorem loadPayload : Obligations.LoadPayload := by
  refine ⟨decode_loadWord, fun st fill text hi => ⟨?empty, ?malformed, ?loaded⟩⟩
  case empty =>
    rintro rfl rfl
    exact exec_bcLoad_of_loaded hi (loadSlot_empty st)
  case malformed => exact fun hlen hne => exec_bcLoad_of_raised hi (loadSlot_of_malformed ⟨hlen, hne⟩ st)
  case loaded => exact fun hlen hfit => exec_bcLoad_of_loaded hi (loadSlot_of_wellFormed hlen hfit)

/-- Settles O23: the slot invariant says that no subtraction is cut off. -/
theorem bitLength : Obligations.BitLength := by
  refine ⟨rfl, fun st hi => ?_⟩
  have run : exec .bcLen st = .next { st with ret := .ok (.nat (6 * st.text.length - st.fill)) } :=
    whenReady_ready hi _
  refine ⟨run, fun hslot => ⟨_, run, ?_⟩⟩
  rcases hslot with ⟨htext, hfill⟩ | hlt
  · simp [htext, hfill]
  · have hne : st.text ≠ [] := by intro h; simp [h] at hlt
    exact ⟨by omega, fun h => absurd h hne, fun _ => by omega⟩

end Sys2Proof.Machine
end

section
/-! SUPPORT. What the Message Model answers below and from a minimum length on (spec/41_message_model_boundary.md R130 to
R133), and the row that a type runs (spec/44_decode_dispatch.md R193). O27, O28. -/

namespace Sys2Proof.Machine

/-- Settles O27: the row that encodes a discriminator runs step 7's case of it. -/
theorem dispatchRunsTheRow : Obligations.DispatchRunsTheRow :=
  fun t ch s => ⟨rfl, (exec_eq_runType (wf_encode_dispInstr t ch).2 s).symm⟩

/-! ### The Message Model's answer -/

section Minimum

variable {p : Params} {mm : Oracle} {q : Query} {m : Nat}

theorem messageModel_of_open (hopen : p.minBits.lookup q.decoder = none) : messageModel p mm q = mm.answer q := by
  rw [messageModel, hopen]

variable (hmin : p.minBits.lookup q.decoder = some m)
include hmin

theorem messageModel_of_below (hlt : bitLen q.text q.fill < m) : messageModel p mm q = .tooShort := by
  simp only [messageModel, hmin, if_pos hlt]

theorem messageModel_of_external {msg : Bytes} (hle : m ≤ bitLen q.text q.fill) (h : mm.answer q = .external msg) :
    messageModel p mm q = .external msg := by
  simp only [messageModel, hmin, if_neg (Nat.not_lt.2 hle), h]

/-- An oracle's own `tooShort` counts as `ok` here (log 7). -/
theorem messageModel_of_no_failure (hle : m ≤ bitLen q.text q.fill) (h : ∀ msg, mm.answer q ≠ .external msg) :
    messageModel p mm q = .ok := by
  rw [messageModel, hmin]
  cases ha : mm.answer q with
  | external msg => exact absurd ha (h msg)
  | ok | tooShort => exact if_neg (Nat.not_lt.2 hle)

/-- From the minimum on the oracle fails with a message or it does not, and the answer follows. -/
theorem messageModel_of_atLeast (hle : m ≤ bitLen q.text q.fill) :
    (∃ msg, mm.answer q = .external msg ∧ messageModel p mm q = .external msg) ∨
      ((∀ msg, mm.answer q ≠ .external msg) ∧ messageModel p mm q = .ok) := by
  by_cases h : ∃ msg, mm.answer q = .external msg
  · obtain ⟨msg, h⟩ := h
    exact .inl ⟨msg, h, messageModel_of_external hmin hle h⟩
  · have h := not_exists.1 h
    exact .inr ⟨h, messageModel_of_no_failure hmin hle h⟩

theorem messageModel_eq_tooShort_iff : messageModel p mm q = .tooShort ↔ bitLen q.text q.fill < m := by
  refine ⟨fun h => Nat.lt_of_not_le fun hle => ?_, messageModel_of_below hmin⟩
  obtain ⟨msg, -, hv⟩ | ⟨-, hv⟩ := messageModel_of_atLeast (mm := mm) hmin hle <;> cases hv.symm.trans h

theorem messageModel_eq_external_iff (hle : m ≤ bitLen q.text q.fill) (msg : Bytes) :
    messageModel p mm q = .external msg ↔ mm.answer q = .external msg := by
  obtain ⟨msg', ha, hv⟩ | ⟨ha, hv⟩ := messageModel_of_atLeast (mm := mm) hmin hle
  · rw [ha, hv]
  · exact iff_of_false (by rw [hv]; exact nofun) (ha msg)

theorem messageModel_eq_ok_iff (hle : m ≤ bitLen q.text q.fill) :
    messageModel p mm q = .ok ↔ ∀ msg, mm.answer q ≠ .external msg := by
  obtain ⟨msg, ha, hv⟩ | ⟨ha, hv⟩ := messageModel_of_atLeast (mm := mm) hmin hle
  · exact iff_of_false (by rw [hv]; exact nofun) (fun h => h msg ha)
  · exact iff_of_true hv ha

end Minimum

/-- Settles O28: one equivalence for each answer the Message Model can give where the minimum is known. -/
theorem minimumLengths : Obligations.MinimumLengths := by
  refine ⟨fun s d ty text f ch => ⟨fun m hmin => ⟨?below, fun hle => ⟨?external, ?ok⟩⟩, ?unknown⟩, ?table⟩
  case below => exact messageModel_eq_tooShort_iff hmin
  case external => exact messageModel_eq_external_iff hmin hle
  case ok => exact messageModel_eq_ok_iff hmin hle
  case unknown => exact fun hopen => messageModel_of_open hopen
  case table => intro d; cases d <;> rfl

end Sys2Proof.Machine
end

section
/-! SUPPORT. The sentence front end step by step (spec/42_sentence_front_end.md R152 to R162): one equation for each way
the seven steps can end before a class of sentence is run, and the front end of an encoded fragment. O39 to O44, O46. -/

namespace Sys2Proof.Machine

/-! ### A failure as a parse call writes it -/

/-- `Fail` empties the slot, keeps the context map and reports nothing but a kind and a channel. -/
theorem fail_wrote (v : Validity) (kind : Kind) (ch : Bytes) (s : State) :
    Wrote s (fail v kind ch s) s.ctx [] 0 v (some kind) none none none ch :=
  ⟨_, rfl⟩

theorem wrote_of_eq_fail {o : Outcome} {v : Validity} {kind : Kind} {ch : Bytes} {s : State}
    (h : o = .next (fail v kind ch s)) :
    ∃ t, o = .next t ∧ Wrote s t s.ctx [] 0 v (some kind) none none none ch :=
  ⟨_, h, fail_wrote v kind ch s⟩

/-! ### The tag test -/

theorem tagKind_of_unsupported {tag : Bytes} (hvdm : tag ≠ tagVdm) (hvdo : tag ≠ tagVdo) : tagKind tag = none := by
  rw [tagKind, if_neg hvdm, if_neg hvdo]

theorem tagKind_of_supported {tag : Bytes} (h : tag = tagVdm ∨ tag = tagVdo) : ∃ own, tagKind tag = some own := by
  rcases h with rfl | rfl
  · exact ⟨_, tagKind_tagText false⟩
  · exact ⟨_, tagKind_tagText true⟩

/-! ### The checksum's enable -/

/-- The option decides, and `CHK_DEFAULT` where there is none (42 R156). -/
theorem effectiveCheck_of_enabled {opt : Option Bool} {chkDefault : Bool}
    (h : opt = some true ∨ (opt = none ∧ chkDefault = true)) : effectiveCheck opt chkDefault = true := by
  rcases h with rfl | ⟨rfl, rfl⟩
  · rfl
  · rfl

/-! ### The conversions -/

theorem convertFields_eq_none {cnt idx f7 : Bytes} (h : dec cnt = none ∨ dec idx = none ∨ dec (fillText f7) = none)
    (own : Bool) (k ch a : Bytes) : convertFields own cnt idx k ch a f7 = none := by
  unfold convertFields
  split
  · next hcnt hidx hfill => simp [hcnt, hidx, hfill] at h
  · rfl

theorem convertFields_of_dec {cnt idx f7 : Bytes} {c i f : Nat} (hcnt : dec cnt = some c) (hidx : dec idx = some i)
    (hfill : dec (fillText f7) = some f) (own : Bool) (k ch a : Bytes) :
    convertFields own cnt idx k ch a f7 = some ⟨own, c, i, k, ch, a, f, afterStar f7⟩ := by
  rw [convertFields, hcnt, hidx, hfill]

/-! ### How the seven steps end -/

section Ends

variable {s : State} {sumOk : Bool} {tag cnt idx k ch a f7 : Bytes} {own : Bool}

theorem parseFields_of_wrong_length {F : List Bytes} (h : F.length ≠ 7) :
    parseFields sumOk F s = .next (fail .invalid .structural [] s) := by
  unfold parseFields
  split
  · exact absurd rfl h
  · rfl

theorem parseFields_of_unsupported (h : tagKind tag = none) :
    parseFields sumOk [tag, cnt, idx, k, ch, a, f7] s = .next (fail .unsupported .structural ch s) := by
  simp only [parseFields, h]

theorem parseFields_of_bad_checksum (hi : s.initialised = true) (hown : tagKind tag = some own) :
    parseFields false [tag, cnt, idx, k, ch, a, f7] s = .next (fail .invalid .checksum ch s) := by
  simp [parseFields, hown, execTagAivdmAivdo, hi]

theorem parseFields_of_not_converted (hi : s.initialised = true) (hown : tagKind tag = some own)
    (hx : convertFields own cnt idx k ch a f7 = none) :
    parseFields true [tag, cnt, idx, k, ch, a, f7] s = .next (fail .invalid .structural ch s) := by
  simp [parseFields, hown, execTagAivdmAivdo, hi, runFields, hx]

theorem exec_spParsef_of_ready (hi : s.initialised = true) (L : List Bytes) :
    exec (.spParsef L) s = parseFields true L s :=
  whenReady_ready hi _

/-- Step 2 set aside, a sentence is its field list, before the first `SP.INIT` too (42 R162). -/
theorem exec_spParse_eq_spParsef {opt : Option Bool} {S : Bytes} (hfit : fits s.params.sentMax S.length = true)
    (hsum : opt = some false ∨ (opt = none ∧ s.chkDefault = false) ∨ checksumMatches S = true) :
    exec (.spParse opt S) s = exec (.spParsef (split S)) s := by
  rw [exec, execSpParse, if_pos hfit, checksum_passes hsum]
  rfl

end Ends

/-! ### The statements -/

/-- Settles O46: the sentence splits into the fragment's fields, they convert back to the fragment, and its index 1 lets
`SENT.SINGLE` go on to step 7. -/
theorem singleSentenceParses : Obligations.SingleSentenceParses := by
  intro s x hi hu hwf hindex
  obtain ⟨hspell, hclass⟩ := ofClass_iff.1 ((wf_classInstr x .single).symm.trans hwf)
  obtain ⟨hsent, htext, -⟩ := hu
  obtain ⟨t, ht⟩ := decodePayload_of_fits hi (text := x.armoured) (by rw [htext, fits_none]) x.fill x.channel
  have hfields : exec (.spParsef (fragmentFields x)) s = .next t := calc
    exec (.spParsef (fragmentFields x)) s
      = parseFields true (fragmentFields x) s := exec_spParsef_of_ready hi _
    _ = runClass x s := parseFields_of_converted hi (tagKind_tagText x.own) (convertFields_fragment x)
    _ = exec (.sentSingle x) s := by rw [runClass_eq_exec, hclass, classInstr]
    _ = .next t := (exec_sentSingle_of_index_one hi hindex).trans ht
  have hsentence : exec (.spParse (some false) (fragmentSentence x)) s = .next t := by
    rw [exec_spParse_eq_spParsef (by rw [hsent, fits_none]) (.inl rfl), split_fragmentSentence hspell, hfields]
  exact ⟨⟨t, hsentence, step7_of_decodePayload ht⟩, ⟨t, hfields, step7_of_decodePayload ht⟩⟩

/-- Settles O39: the field count is looked at before anything else, the checksum's verdict included. -/
theorem wrongFieldCount : Obligations.WrongFieldCount := by
  intro s hi
  constructor
  · intro opt S hfit hlen
    exact wrote_of_eq_fail ((exec_spParse_of_fits hi hfit).trans (parseFields_of_wrong_length hlen))
  · intro L hlen
    exact wrote_of_eq_fail ((exec_spParsef_of_ready hi L).trans (parseFields_of_wrong_length hlen))

/-- Settles O40: the tag is looked at before the checksum's verdict. -/
theorem unsupportedTalker : Obligations.UnsupportedTalker := by
  intro s tag cnt idx k ch a f7 hi hvdm hvdo
  have htag := tagKind_of_unsupported hvdm hvdo
  constructor
  · intro opt S hfit hS
    apply wrote_of_eq_fail
    rw [exec_spParse_of_fits hi hfit, hS, parseFields_of_unsupported htag]
  · exact wrote_of_eq_fail ((exec_spParsef_of_ready hi _).trans (parseFields_of_unsupported htag))

/-- Settles O41: an enabled checksum that does not match gives step 2 the verdict false. -/
theorem checksumMismatch : Obligations.ChecksumMismatch := by
  intro s opt S tag cnt idx k ch a f7 hi hfit hS htag hon hbad
  obtain ⟨own, hown⟩ := tagKind_of_supported htag
  have hverdict : (!effectiveCheck opt s.chkDefault || checksumMatches S) = false := by
    rw [effectiveCheck_of_enabled hon, hbad]
    rfl
  apply wrote_of_eq_fail
  rw [exec_spParse_of_fits hi hfit, hverdict, hS, parseFields_of_bad_checksum hi hown]

/-- Settles O42: the two outcomes are equal, message included. -/
theorem parseIsParseFields : Obligations.ParseIsParseFields :=
  fun _ _ _ hfit hsum => congrArg exceptMsg (exec_spParse_eq_spParsef hfit hsum)

/-- Settles O43: a conversion that fails ends the field list, and the sentence is its field list. -/
theorem numbersNotDecimal : Obligations.NumbersNotDecimal := by
  intro s tag cnt idx k ch a f7 hi htag hdec
  obtain ⟨own, hown⟩ := tagKind_of_supported htag
  have hfields : exec (.spParsef [tag, cnt, idx, k, ch, a, f7]) s = .next (fail .invalid .structural ch s) :=
    (exec_spParsef_of_ready hi _).trans
      (parseFields_of_not_converted hi hown (convertFields_eq_none hdec own k ch a))
  refine ⟨wrote_of_eq_fail hfields, fun opt S hfit hS hsum => wrote_of_eq_fail ?_⟩
  rw [exec_spParse_eq_spParsef hfit hsum, hS, hfields]

/-- Settles O44: the two outcomes are equal, message included, in each of the five classes. -/
theorem parseFieldsRunsTheClass : Obligations.ParseFieldsRunsTheClass := by
  intro s own cnt idx k ch a f7 c i f hi hcnt hidx hfill x
  have hx : convertFields own cnt idx k ch a f7 = some x := convertFields_of_dec hcnt hidx hfill own k ch a
  have hrun : exec (.spParsef [if own then tagVdo else tagVdm, cnt, idx, k, ch, a, f7]) s = runClass x s :=
    (exec_spParsef_of_ready hi _).trans (parseFields_of_converted hi (tagKind_tagText own) hx)
  rw [hrun, runClass]
  cases classOf c i <;> rfl

end Sys2Proof.Machine
end

section
/-! SUPPORT. The five sentence classes one by one (spec/43_reassembly.md R171 to R176): a class that comes to one of the
ends of `ClassEnd` leaves the state that end describes, and no instruction touches the context of an identifier it does
not name (R178). O31, O32, O33, O34, O35, O54. -/

namespace Sys2Proof.Machine

/-! ### Which class a sentence runs -/

theorem runClass_of_classNumbers {x : Fragment} {k : SentenceClass} (h : classNumbers k x.count x.index = true)
    (s : State) : runClass x s = exec (classInstr x k) s := by
  rw [runClass_eq_exec, classOf_of_classNumbers h]

/-! ### What each end leaves -/

section Ends

variable {s : State} {x : Fragment} {k : SentenceClass} (hi : s.initialised = true)
include hi

theorem exec_classInstr_of_end {a : ClassEnd} (h : classEnd x (ctxGet x.seqId s.ctx) k = a) :
    exec (classInstr x k) s = a.run x s := by
  rw [exec_classInstr, whenReady_ready hi, h]

theorem wrote_of_failKeeping (h : classEnd x (ctxGet x.seqId s.ctx) k = .failKeeping) :
    ∃ t, exec (classInstr x k) s = .next t ∧
      Wrote s t s.ctx [] 0 .invalid (some .sequence) none none none x.channel :=
  wrote_of_eq_fail (exec_classInstr_of_end hi h)

theorem wrote_of_failDropping {v : Validity} (h : classEnd x (ctxGet x.seqId s.ctx) k = .failDropping v) :
    ∃ t, exec (classInstr x k) s = .next t ∧
      Wrote s t (ctxDel x.seqId s.ctx) [] 0 v (some .sequence) none none none x.channel :=
  ⟨_, exec_classInstr_of_end hi h, _, rfl⟩

theorem wrote_of_store {n : Nat} {acc : Bytes} (h : classEnd x (ctxGet x.seqId s.ctx) k = .store n acc)
    (htext : fits s.params.textMax acc.length = true)
    (hctx : fits s.params.ctxCap (ctxPut x.seqId ⟨n, acc⟩ s.ctx).length = true) :
    ∃ t, exec (classInstr x k) s = .next t ∧
      Wrote s t (ctxPut x.seqId ⟨n, acc⟩ s.ctx) [] 0 .incomplete none none none none x.channel := by
  rw [exec_classInstr_of_end hi h, ClassEnd.run, storeContext_of_fits htext hctx]
  exact ⟨_, rfl, _, rfl⟩

theorem step7_of_decodeKeeping {text : Bytes} (h : classEnd x (ctxGet x.seqId s.ctx) k = .decodeKeeping text)
    (htext : fits s.params.textMax text.length = true) :
    ∃ t, exec (classInstr x k) s = .next t ∧ Step7 text x.fill x.channel s t := by
  obtain ⟨t, ht⟩ := decodePayload_of_fits hi htext x.fill x.channel
  exact ⟨t, (exec_classInstr_of_end hi h).trans ht, step7_of_decodePayload ht⟩

theorem step7_of_decodeDropping {text : Bytes} (h : classEnd x (ctxGet x.seqId s.ctx) k = .decodeDropping text)
    (htext : fits s.params.textMax text.length = true) :
    ∃ t, exec (classInstr x k) s = .next t ∧ Step7 text x.fill x.channel (dropContext x.seqId s) t := by
  obtain ⟨t, ht⟩ := decodePayload_of_fits (s := dropContext x.seqId s) hi htext x.fill x.channel
  exact ⟨t, (exec_classInstr_of_end hi h).trans ht, step7_of_decodePayload ht⟩

end Ends

/-! ### The classes -/

/-- Settles O31: the index decides between two ends, neither of which writes the context map. -/
theorem singleSentence : Obligations.SingleSentence := by
  intro s x hi
  refine ⟨fun hcount => ?runs, fun hindex => ?otherIndex, fun hindex htext => ?indexOne⟩
  case runs => exact runClass_of_classNumbers (k := .single) (decide_eq_true hcount) s
  case otherIndex => exact wrote_of_failKeeping (k := .single) hi (if_pos hindex)
  case indexOne => exact step7_of_decodeKeeping (k := .single) hi (if_neg (not_not.2 hindex)) htext

/-- Settles O32: the fill is looked at before the context; a new context makes the map larger by one. -/
theorem firstFragment : Obligations.FirstFragment := by
  intro s x hi
  refine ⟨fun hcount hindex => ?runs, fun hfill => ?filled, fun hfill hlive => ?live,
    fun hfill hnew htext hcap => ?new⟩
  case runs => exact runClass_of_classNumbers (k := .first) (decide_eq_true ⟨hcount, hindex⟩) s
  case filled => exact wrote_of_failDropping (k := .first) hi (if_pos hfill)
  case live =>
    obtain ⟨e, he⟩ := ctxHas_iff.1 hlive
    exact wrote_of_failDropping (k := .first) hi (by simp [classEnd, hfill, he])
  case new =>
    rw [← length_ctxPut_of_ctxHas_eq_false hnew ⟨2, x.armoured⟩] at hcap
    exact wrote_of_store (k := .first) hi (by simp [classEnd, hfill, ctxHas_eq_false_iff.1 hnew]) htext hcap

/-- Settles O33: the fill is looked at first, then whether there is a context, then which index it awaits. -/
theorem middleFragment : Obligations.MiddleFragment := by
  intro s x hi
  refine ⟨fun hlow hhigh => ?runs, fun hfill => ?filled, fun hfill hnone => ?absent,
    fun n acc hfill hget hne => ?awaitsAnother, fun acc hfill hget htext hcap => ?awaited⟩
  case runs =>
    exact runClass_of_classNumbers (k := .middle) (decide_eq_true ⟨hlow.trans hhigh, hlow, hhigh⟩) s
  case filled => exact wrote_of_failDropping (k := .middle) hi (if_pos hfill)
  case absent => exact wrote_of_failKeeping (k := .middle) hi (by simp [classEnd, hfill, hnone])
  case awaitsAnother => exact wrote_of_failDropping (k := .middle) hi (by simp [classEnd, hfill, hget, hne])
  case awaited => exact wrote_of_store (k := .middle) hi (by simp [classEnd, hfill, hget]) htext hcap

/-- Settles O34: step 7 starts from the state without the context, on the text accumulated and this fragment's own. -/
theorem finalFragment : Obligations.FinalFragment := by
  intro s x hi
  refine ⟨fun hcount hindex => ?runs, fun hnone => ?absent, fun n acc hget hne => ?awaitsAnother,
    fun acc hget htext => ?awaited⟩
  case runs => exact runClass_of_classNumbers (k := .final) (decide_eq_true ⟨hcount, hindex⟩) s
  case absent => exact wrote_of_failKeeping (k := .final) hi (by simp [classEnd, hnone])
  case awaitsAnother => exact wrote_of_failDropping (k := .final) hi (by simp [classEnd, hget, hne])
  case awaited => exact step7_of_decodeDropping (k := .final) hi (by simp [classEnd, hget]) htext

/-- Settles O35: the class has one end, in which neither the fill nor the context is looked at. -/
theorem badSequenceNumbers : Obligations.BadSequenceNumbers := by
  intro s x hi
  constructor
  · exact fun h => runClass_of_classNumbers (k := .badseq) (decide_eq_true h) s
  · exact wrote_of_failDropping (k := .badseq) hi rfl

/-! ### The contexts of other identifiers -/

/-- A sentence keeps, removes or writes the context of its own identifier, and no other. -/
theorem Parsed.ctxGet_other {k k' : Bytes} {s t : State} (h : Parsed k s t) (hk : k' ≠ k) :
    ctxGet k' t.ctx = ctxGet k' s.ctx := by
  obtain ⟨c, text, fill, v, kind, exc, ty, d, ch, rfl, hc, -⟩ := h
  rcases hc with rfl | rfl | ⟨n, acc, rfl, -⟩
  · rfl
  · exact ctxGet_ctxDel_other hk s.ctx
  · exact ctxGet_ctxPut_other hk _ s.ctx

/-- Apart from `SP.INIT`, only a parse or a sentence with an identifier can write the context map. -/
theorem ctx_of_exec {i : Instr} {s t : State} (hinit : ∀ c, i ≠ .spInit c) (h : exec i s = .next t) :
    t.ctx = s.ctx ∨ ∃ k, keyOf i = some k ∧ Parsed k s t := by
  cases act h with
  | init c hi ht => exact absurd hi (hinit c)
  | parsed k hk hp => exact .inr ⟨k, hk, hp⟩
  | short hp ht => subst ht; exact .inl rfl
  | load hi text fill hslot ht => subst ht; exact .inl rfl
  | ans hi v ht => subst ht; exact .inl rfl
  | rse hi e ht => subst ht; exact .inl rfl
  | tag own hi ht => subst ht; exact .inl rfl
  | unsup ty ch hi hd ht => subst ht; exact .inl rfl
  | sup ty ch d hi hd ht =>
    obtain ⟨v, kind, exc, hw, -⟩ := dispatchTo_writes d ty ch s
    rw [ht, hw]
    exact .inl rfl

/-- Settles O54: the map is unchanged, or what changed is the context of the identifier that the instruction names. -/
theorem otherContextsUntouched : Obligations.OtherContextsUntouched := by
  intro i s t hinit h
  obtain hctx | ⟨k, hk, hp⟩ := ctx_of_exec hinit h
  · exact ⟨fun _ _ => by rw [hctx], fun _ => hctx⟩
  · rw [hk]
    exact ⟨fun k' hne => hp.ctxGet_other fun e => hne (e ▸ rfl), nofun⟩

end Sys2Proof.Machine
end

section
/-! SUPPORT. Step 7 on a payload that fits (spec/44_decode_dispatch.md R190 to R197): no capacity stops it, and what it
ends in is the outcome the rules list. O29. -/

namespace Sys2Proof.Machine

/-- Settles O29: a text that fits is loaded or found malformed, so step 7 goes on; whatever it ends in is the outcome
listed. -/
theorem decodeOutcome : Obligations.DecodeOutcome := by
  intro s text f ch hi hfits
  obtain ⟨t, ht⟩ := decodePayload_of_fits hi hfits f ch
  exact ⟨t, ht, step7_of_decodePayload ht⟩

end Sys2Proof.Machine
end

section
/-! SUPPORT. What a failure leaves (spec/60_exceptions.md R211, R212): a codec operation that raises has loaded nothing,
and a parse that fails before reassembly keeps every context. O24, O56. -/

namespace Sys2Proof.Machine

/-- What a codec operation can do: answer a value, from the slot it has loaded or found, or raise. -/
theorem exec_codec_eq_next {i : Instr} {s t : State} (hcodec : isCodec i = true) (h : exec i s = .next t) :
    (∃ v s', t = answer v s') ∨ ∃ e, t = raise e s := by
  cases act h with
  | init c hi ht => subst hi; cases hcodec
  | parsed k hk hp => rw [keyOf_of_isCodec hcodec] at hk; cases hk
  | short hp ht => rcases hp with ⟨_, _, rfl⟩ | ⟨_, rfl⟩ <;> cases hcodec
  | load hi text fill hslot ht => exact .inl ⟨_, _, ht⟩
  | ans hi v ht => exact .inl ⟨v, s, ht⟩
  | rse hi e ht => exact .inr ⟨e, ht⟩
  | tag own hi ht => subst hi; cases hcodec
  | unsup ty ch hi hd ht => rw [hi, (dispInstr_kind ty ch).1] at hcodec; cases hcodec
  | sup ty ch d hi hd ht => rw [hi, (dispInstr_kind ty ch).1] at hcodec; cases hcodec

/-- Settles O24: what answers a value has not raised, and raising writes the answer alone. -/
theorem raisingChangesNothing : Obligations.RaisingChangesNothing := by
  intro i s t e hcodec h hret
  obtain ⟨v, s', rfl⟩ | ⟨e', rfl⟩ := exec_codec_eq_next hcodec h
  · cases hret
  · cases hret
    rfl

/-- A parse that ends with kind Structural or Checksum has emptied the slot and written the report, nothing else. -/
theorem parseFields_early_failure {sumOk : Bool} {F : List Bytes} {s t : State} {r : Report}
    (h : parseFields sumOk F s = .next t) (hr : t.result = some r)
    (hkind : r.kind = some .structural ∨ r.kind = some .checksum) :
    t = { s with text := [], fill := 0, result := some r, ret := .none, draws := s.draws + 1 } := by
  obtain ⟨k, -, c, text, fill, v, kind, exc, ty, d, ch, rfl, -, -, -, hearly⟩ | rfl := parsed_parseFields h
  · cases hr
    obtain ⟨rfl, rfl, rfl⟩ := hearly hkind
    rfl
  · cases hr
    rfl

/-- Settles O56: both parse calls run the same steps on a field list. -/
theorem earlyFailuresKeepContexts : Obligations.EarlyFailuresKeepContexts := by
  rintro s t i r (⟨opt, S, rfl⟩ | ⟨L, rfl⟩) h hr hkind
  · obtain ⟨-, sumOk, hp⟩ := execSpParse_eq_next h
    exact parseFields_early_failure hp hr hkind
  · exact parseFields_early_failure (whenReady_eq_next h).2 hr hkind

end Sys2Proof.Machine
end

section
/-! SUPPORT. Before the first `SP.INIT` (spec/70_reset_and_hazards.md R241): every row but `SP.INIT` either waits for it
(`whenReady`) or is a reserved code, which is refused in any state. O38. -/

namespace Sys2Proof.Machine

theorem whenReady_refuses {s : State} (hi : s.initialised = false) (o : Outcome) : ∃ r, whenReady s o = .refused r :=
  ⟨_, whenReady_not_ready hi o⟩

/-- A dispatch row is refused by the `whenReady` of its type's case. -/
theorem exec_dispatch_refuses {i : Instr} {ty : Sym} {ch : Bytes} {s : State} (hi : s.initialised = false)
    (henc : encode i = .typeField ty ch) : ∃ r, exec i s = .refused r := by
  rw [exec_eq_runType henc, runType_eq]
  exact whenReady_refuses hi _

/-- Settles O38, row by row: the reserved codes are refused anyway, and whatever else is not `SP.INIT` asks first
whether one was issued. -/
theorem refusedBeforeInit : Obligations.RefusedBeforeInit := by
  intro i s hi hinit
  cases i
  case spInit c => exact absurd rfl (hinit c)
  case cmdReserved3 | cmdReserved4 | cmdReserved5 | cmdReserved6 | cmdReserved7 | cmdReservedE | cmdReservedF =>
    exact ⟨_, rfl⟩
  case spParse | spParsef | bcLoad | bcLen | bcRdu | bcRdi | bcRds | bcRdb | sentSingle | sentFirst | sentMiddle |
      sentFinal | sentBadseq | tagAivdmAivdo =>
    exact whenReady_refuses hi _
  all_goals exact exec_dispatch_refuses hi rfl

end Sys2Proof.Machine
end
